-- ==== Sys2Proof/Word.lean ====
section
/-! DEFINITION. The plain value types of the SQ-24: bytes, local times, score positions, and the numbers of stations, channels, pieces and attention sources (spec 00, Conventions and Numbering). -/

set_option Elab.async false

namespace Sys2Proof

/-- A byte of a frame or of the score store. -/
abbrev Byte := BitVec 8

/-- A local time or a duration in µs (00, Local time). Computed times may lie before the reset (R70), so the type is signed. -/
abbrev Time := Int

/-- A score position in subticks (00, Score position). -/
abbrev Pos := Int

/-- A station number 0–31. -/
abbrev StationNo := Fin 32

/-- A channel, output or sensor-input number 0–23. -/
abbrev Chan := Fin 24

/-- A piece number 0–15. -/
abbrev Piece := Fin 16

/-- An attention source; the source numbered n in R160's table (10.1) is `n - 1` here. -/
abbrev Source := Fin 33

end Sys2Proof
end

