-- ==== Sys2Proof/Syntax.lean ====
section
/-! DEFINITION. The commands of the SQ-24: one constructor of `Instr` per row of spec/opcode_table.json, with the row's operands. The first operand `t` of a command is the local time, in µs, of its moment (log 1). -/

set_option Elab.async false

namespace Sys2Proof

/-- The two buttons of R8. -/
inductive Button where
  | startIn
  | stopIn
  deriving DecidableEq, Repr

/-- A moment on the cue line, with the local time since which LINE_RX has read recessive without a break; where it reads dominant that is the moment itself (R155; log 61). -/
structure LineMoment where
  time : Nat
  recessiveSince : Nat
  deriving DecidableEq, Repr

/-- The moment a fault shows in a frame, with the local time of the frame's start bit and that since which LINE_RX has read recessive without a break (R155; log 61). -/
structure FaultMoment where
  time : Nat
  began : Nat
  recessiveSince : Nat
  deriving DecidableEq, Repr

/-- One command, in the order of the table. Frame fields have their widths on the wire (09, the frame table). -/
inductive Instr where
  /-- RESET_N is driven low (R96). -/
  | resetNAssert (t : Nat)
  /-- RESET_N is released; `straps` is the level of STN4–STN0 (R1). -/
  | resetNRelease (straps : StationNo)
  /-- VDD below 2.90 V for 2 µs (R141). -/
  | supplyFall (t : Nat)
  /-- VDD above 3.05 V; `straps` as for RESET_N_RELEASE (R142). -/
  | supplyRise (straps : StationNo)
  /-- VDD below 1.50 V (R142). -/
  | retentionLoss
  | validationComplete (t : Nat)
  | joinDeadline (t : Nat)
  | keepaliveDeadline (t : Nat)
  | companyDeadline (t : Nat)
  | presenceDeadline (t : Nat) (peer : StationNo)
  | buttonInputEdge (t : Nat) (button : Button) (asserted : Bool)
  | startInPress (t : Nat)
  | stopInPress (t : Nat)
  | buttonReleaseQualified (t : Nat) (button : Button)
  | startFrame (t : Nat) (sender : StationNo) (piece : Byte) (startBar : BitVec 16) (lead : Byte) (period : BitVec 24)
  | stopFrame (t : Nat) (sender : StationNo) (reason : Byte)
  | releaseFrame (t : Nat) (sender : StationNo) (piece hold : Byte)
  | markFrame (t : Nat) (sender : StationNo) (pos : BitVec 32) (len : BitVec 24) (bar : BitVec 16) (state piece hold : Byte)
  | announceFrame (t : Nat) (sender : StationNo) (cls state piece cause : Byte)
  | muteFrame (t : Nat) (sender : StationNo) (mask : BitVec 32) (piece : Byte) (startBar stopBar : BitVec 16) (onOff : Byte)
  | queryFrame (t : Nat) (sender : StationNo) (target : Byte)
  | reportFrame (t : Nat) (sender : StationNo) (source level count : Byte) (detail : BitVec 16) (queried : Byte)
  | svcReplyFrame (t : Nat) (sender : StationNo) (requester status : Byte) (addr : BitVec 16) (data : BitVec 64)
  | readStore (t : Nat) (sender : StationNo) (target : Byte) (addr : BitVec 16)
  | programStore (t : Nat) (sender : StationNo) (target : Byte) (addr : BitVec 16) (data : BitVec 64)
  | programComplete (t : Nat)
  | eraseSector (t : Nat) (sender : StationNo) (target : Byte) (addr : BitVec 16)
  | eraseComplete (t : Nat)
  | enterService (t : Nat) (sender : StationNo) (target : Byte) (addr : BitVec 16)
  | leaveService (t : Nat) (sender : StationNo) (target : Byte) (addr : BitVec 16)
  | partReset (t : Nat) (sender : StationNo) (target : Byte) (addr : BitVec 16)
  | clearHalt (t : Nat) (sender : StationNo) (target : Byte) (addr : BitVec 16)
  | enableChannel (t : Nat) (sender : StationNo) (target : Byte) (addr : BitVec 16)
  | check (t : Nat) (sender : StationNo) (target : Byte) (addr : BitVec 16) (n : Byte)
  | readRoster (t : Nat) (sender : StationNo) (target : Byte) (addr : BitVec 16)
  | readCounters (t : Nat) (sender : StationNo) (target : Byte) (addr : BitVec 16)
  | readChannel (t : Nat) (sender : StationNo) (target : Byte) (addr : BitVec 16)
  | unknownSvcOperation (t : Nat) (sender : StationNo) (target op : Byte) (addr : BitVec 16)
  | frameCrcError (m : FaultMoment)
  | frameFramingError (m : FaultMoment)
  | frameUnknownKind (m : LineMoment)
  /-- `recessiveSince` is the local time since which LINE_RX has read recessive without a break (R147). -/
  | txAttemptStart (t : Nat) (recessiveSince : Nat)
  | arbitrationLoss (t : Nat)
  | txError (t : Nat)
  | muteEnd (t : Nat)
  | frameSent (t : Nat)
  | beatBoundary (t : Nat)
  | holdReached (t : Nat)
  | ownerDeadline (t : Nat)
  | holdLimit (t : Nat)
  | holdMarkDeadline (t : Nat)
  | endReached (t : Nat)
  | readerTakeItem (t : Nat)
  | scanRecord (t : Nat)
  | armMoment (t : Nat)
  | fireTimeReached (t : Nat) (channel : Chan)
  | claimLateDrop (t : Nat)
  | pulseEnd (t : Nat) (channel : Chan)
  | recoveryEnd (t : Nat) (channel : Chan)
  | sensorAssertion (t : Nat) (input : Chan)
  | sensorRelease (t : Nat) (input : Chan)
  | windowOpen (t : Nat)
  | windowClose (t : Nat)
  | stuckDeadline (t : Nat) (input : Chan)
  | dampApply (t : Nat) (channel : Chan)
  | pullInEnd (t : Nat) (channel : Chan)
  | damperCheckDeadline (t : Nat) (channel : Chan)
  | tachEdge (t : Nat)
  /-- `millivolts` is the voltage at RAIL_SENSE, in whole millivolts of the rail (R132; log 60). -/
  | railSample (t : Nat) (millivolts : Int)
  | frameLeadingEdge (m : LineMoment)
  deriving DecidableEq, Repr

end Sys2Proof
end

