-- ==== Sys2Proof/WellFormed.lean ====
section
/-! DEFINITION. Which commands can stand for a moment of the part: the checks on operands that the widths of `Instr` do not make already. The machine gives every command a meaning, well formed or not (log 2); these checks say which ones the spec speaks of. -/

set_option Elab.async false

namespace Sys2Proof

/-- The operation codes of the table of 11.5. -/
def svcOperationCodes : List Byte :=
  [0x01, 0x02, 0x03, 0x10, 0x11, 0x12, 0x13, 0x14, 0x15, 0x20, 0x21, 0x22]

/-- The moment of a command, where it has one. -/
def Instr.moment : Instr → Option Nat
  | .resetNAssert t | .supplyFall t | .validationComplete t | .joinDeadline t | .keepaliveDeadline t
  | .companyDeadline t | .presenceDeadline t _ | .buttonInputEdge t _ _ | .startInPress t | .stopInPress t
  | .buttonReleaseQualified t _ | .startFrame t _ _ _ _ _ | .stopFrame t _ _ | .releaseFrame t _ _ _
  | .markFrame t _ _ _ _ _ _ _ | .announceFrame t _ _ _ _ _ | .muteFrame t _ _ _ _ _ _ | .queryFrame t _ _
  | .reportFrame t _ _ _ _ _ _ | .svcReplyFrame t _ _ _ _ _ | .readStore t _ _ _ | .programStore t _ _ _ _
  | .programComplete t | .eraseSector t _ _ _ | .eraseComplete t | .enterService t _ _ _ | .leaveService t _ _ _
  | .partReset t _ _ _ | .clearHalt t _ _ _ | .enableChannel t _ _ _ | .check t _ _ _ _ | .readRoster t _ _ _
  | .readCounters t _ _ _ | .readChannel t _ _ _ | .unknownSvcOperation t _ _ _ _
  | .txAttemptStart t _ | .arbitrationLoss t | .txError t
  | .muteEnd t | .frameSent t | .beatBoundary t | .holdReached t | .ownerDeadline t | .holdLimit t
  | .holdMarkDeadline t | .endReached t | .readerTakeItem t | .scanRecord t | .armMoment t | .fireTimeReached t _
  | .claimLateDrop t | .pulseEnd t _ | .recoveryEnd t _ | .sensorAssertion t _ | .sensorRelease t _
  | .windowOpen t | .windowClose t | .stuckDeadline t _ | .dampApply t _ | .pullInEnd t _
  | .damperCheckDeadline t _ | .tachEdge t | .railSample t _ => some t
  | .frameCrcError m | .frameFramingError m => some m.time
  | .frameUnknownKind m | .frameLeadingEdge m => some m.time
  | .resetNRelease _ | .supplyRise _ | .retentionLoss => none

/-- Local time is 48 bits wide and does not wrap (00, Local time). -/
def Instr.momentFits (i : Instr) : Bool :=
  match i.moment with
  | some t => t < 2 ^ 48
  | none => true

/-- The checks of one row's own operands. -/
def Instr.operandsFit : Instr → Bool
  | .validationComplete t => t ≤ 30000                       -- R2: within 30 ms of leaving reset
  | .unknownSvcOperation _ _ _ op _ => !svcOperationCodes.contains op   -- R171: a code not in the table
  | .txAttemptStart t since => since ≤ t                      -- R147: recessive up to the moment itself
  | .frameUnknownKind m | .frameLeadingEdge m => m.recessiveSince ≤ m.time
  | .frameCrcError m | .frameFramingError m => m.began ≤ m.recessiveSince ∧ m.recessiveSince ≤ m.time   -- R155
  | .sensorAssertion t _ | .sensorRelease t _ => t % 10 = 0 ∧ 20 ≤ t   -- R103: the third of three 10 µs samples
  | .railSample t _ => t % 1000 = 0                           -- R132
  | .reportFrame _ _ source level _ _ _ => source.toNat ≤ 33 ∧ level.toNat ≤ 7   -- 10.1
  | _ => true

/-- A command the spec speaks of. -/
def Instr.wellFormed (i : Instr) : Bool := i.momentFits && i.operandsFit

end Sys2Proof
end

