-- ==== Sys2Proof/Decode.lean ====
section
/-! DEFINITION. Decoding of the words of spec/opcode_table.json. No row of the table gives bits (its `fields` are empty and it has no `fixed`), so no word spells a command. -/

set_option Elab.async false

namespace Sys2Proof

/-- The command that the `nbits`-bit word `w` spells by the table's bits: none, for every word, since no row gives bits. -/
def decodeTableWord (_nbits _w : Nat) : Option Instr := none

end Sys2Proof
end

