-- ==== Sys2Proof/Config.lean ====
section
/-! DEFINITION. What the spec fixes for every SQ-24 (the constants of its chapters), and the free values: opaque, with no body, for the values it leaves open. -/

set_option Elab.async false

namespace Sys2Proof.Config

/-- One beat in subticks (00, Score position). -/
def beat : Int := 7680
/-- The largest score position (R47). -/
def maxPosition : Int := 2147483647
/-- The arm lead (4.1). -/
def armLead : Time := 2000
/-- Depth of the strike queue (R63). -/
def strikeQueueDepth : Nat := 64
/-- Length of the timeline list (R51). -/
def timelineDepth : Nat := 16
/-- Lines kept in the bar map (R52). -/
def barMapDepth : Nat := 8
/-- Capacity of the confirm list (6.1). -/
def confirmDepth : Nat := 32
/-- Capacity of the transmit queue (R152). -/
def txDepth : Nat := 8
/-- Time the reader or the scan spends on one item (R48, R58). -/
def itemTime : Time := 2
/-- Qualification time of a button (R8). -/
def buttonTime : Time := 20000
/-- Sample period of the sensor inputs (R103). -/
def sensorPeriod : Time := 10
/-- Bounce guard after a confirmation (6.1). -/
def bounceGuard : Time := 30000
/-- Stuck time (6.1). -/
def stuckTime : Time := 200000
/-- Damper pull-in (7.1). -/
def pullIn : Time := 30000
/-- Damper position check time (7.1). -/
def checkTime : Time := 100000
/-- Time of one program (R172). -/
def programTime : Time := 80
/-- Time of one erase (R173). -/
def eraseTime : Time := 20000
/-- Muting of the port (R151). -/
def muteTime : Time := 1000000
/-- Failed attempts at which a frame is dropped (R150). -/
def maxAttempts : Nat := 4
/-- Consecutive failed attempts at which the port is muted (R151). -/
def muteAttempts : Nat := 16
/-- Quiet gap in bit times (R147). -/
def quietGapBits : Int := 12
/-- Yield gap in bit times (R147). -/
def yieldGapBits : Int := 8

/-- Free value: what the bits of a byte hold that an interrupted program or erase was changing (R176). The arguments are a counter that every interruption advances and the byte's address (log 19). -/
opaque freeByte : Nat → Nat → Byte

/-- Free value: where a mark at position `pm` stands when its beat length is 0, for which R42 states no result (log 18). -/
opaque zeroBeatCarry : Int → Int

/-- Free value: the position field of a MARK whose position does not fit a signed 32-bit field, by the moment it is filled and the position (R27; log 16). -/
opaque positionField : Time → Int → BitVec 32

/-- Free value: the offset field of READ_ROSTER page 2 for an offset that does not fit a signed 32-bit field, by the moment of the reading and the offset (R175; log 17). -/
opaque offsetField : Time → Int → BitVec 32

/-- Free values: the position, the length and the state that READ_ROSTER pages 1 and 2 report of a last mark that is absent, by the moment of the reading and the station (R175; log 71). -/
opaque absentPosition : Time → StationNo → BitVec 32
opaque absentLength : Time → StationNo → BitVec 24
opaque absentState : Time → StationNo → Byte

/-- Free value: the sensor input READ_CHANNEL page 0 reports for an UNUSED channel, nothing of whose record is used, by the moment of the reading and the channel (R85, R175; log 20). -/
opaque unusedSensorInput : Time → Chan → Byte

end Sys2Proof.Config
end

