-- ==== Sys2Proof/Machine/State.lean ====
section
/-! DEFINITION. The state of the SQ-24 as plain data, its reset value, and the reasons a command could stop (there is none in the spec). Each structure names the chapter table it follows. Times are local times in µs, positions subticks. -/

set_option Elab.async false

namespace Sys2Proof.Machine

/-! ## Names -/

/-- Station states (00, Station states; coded as in 09). -/
inductive StationState where
  | offline | listening | ready | countin | rejoining | playing | holding | halted | service
  deriving DecidableEq, Repr

/-- Reset causes (R1). -/
inductive ResetCause where
  | power | supply | pin | service
  deriving DecidableEq, Repr

/-- Instrument classes (00, Terms). -/
inductive InstrClass where
  | marimba | vibraphone | percussion | showControl | service
  deriving DecidableEq, Repr

/-- Rail bands (8.4). -/
inductive Band where
  | normal | low | cut
  deriving DecidableEq, Repr

/-- Logic-supply states (R141). -/
inductive SupplyState where
  | good | low
  deriving DecidableEq, Repr

/-- Button qualifier states (R8). -/
inductive QualState where
  | released | pressing | pressed
  deriving DecidableEq, Repr

/-- Reader states (3.1). -/
inductive ReaderState where
  | idle | scanPending | scanning | reading | ended
  deriving DecidableEq, Repr

/-- Damper states (R120). -/
inductive DamperState where
  | lowered | raising | raised | lowering
  deriving DecidableEq, Repr

/-- Causes of a disabled channel (R97). -/
inductive DisableCause where
  | misses | stuck
  deriving DecidableEq, Repr

/-- Channel kinds (5.1). -/
inductive ChannelKind where
  | unused | striker | damper
  deriving DecidableEq, Repr

/-- Sensor modes (5.1). -/
inductive SensorMode where
  | edge | edgeLevel
  deriving DecidableEq, Repr

/-- The states READ_CHANNEL reports (R87, R175). -/
inductive ChannelState where
  | idle | armed | driving | recovering | disabled | lowered | raising | raised | lowering
  deriving DecidableEq, Repr

/-- mark_interval (2.1). -/
inductive MarkInterval where
  | everyBeat | everySecondBeat | barFirst
  deriving DecidableEq, Repr

/-- Reply statuses (11.5). -/
inductive SvcStatus where
  | done | busy | wrongState | protectedSector | range | align | failed
  deriving DecidableEq, Repr

/-! ## Settings in force -/

/-- One channel record as validated (5.1). -/
structure ChannelSettings where
  kind : ChannelKind
  mode : SensorMode
  output : Chan
  input : Chan
  baseW : Int
  slopeW : Int
  minW : Int
  maxW : Int
  flightMin : Int
  flightSpan : Int
  recBase : Int
  recRatio : Int
  damperLead : Int
  deriving DecidableEq, Repr

/-- The settings the last validation put in force (R2, R168). -/
structure Options where
  /-- duration of one bit on the cue line, µs: 4, 2 or 1 (R144) -/
  bitTime : Int
  presenceTimeout : Time
  cls : InstrClass
  markInterval : MarkInterval
  markAge : Int
  gainPhase : Int
  gainFreq : Int
  capture : Int
  holdLimit : Nat
  defaultTempo : Int
  defaultBpb : Nat
  defaultLead : Nat
  defaultPiece : Piece
  lookAhead : Int
  lateTol : Time
  driveSlots : Nat
  nom : Int
  depth : Nat
  cut : Nat
  warn : Nat
  hyst : Nat
  winEarly : Time
  winLate : Time
  rotorGain : Int
  reportThreshold : Nat
  protectStart : Nat
  /-- follow weights by station; `none` is "by class" (R20) -/
  weights : Vector (Option Nat) 32
  /-- the used pins (R18) -/
  pins : List (StationNo × InstrClass)
  promo1 : Nat
  promo2 : Nat
  /-- primary and alternate channel of each voice (3.1) -/
  voices : Vector (Option Chan × Option Chan) 128
  channels : Vector ChannelSettings 24
  deriving DecidableEq, Repr

/-- What the last validation found of one piece (1.1, R169). -/
inductive PartStatus where
  | noPart
  | invalid
  | valid (start count : Nat)
  deriving DecidableEq, Repr

/-! ## Station controller (1.1) -/

/-- A button's qualifier with the pin level it follows and the moment that level began (R8). -/
structure Qualifier where
  state : QualState
  asserted : Bool
  since : Time
  deriving DecidableEq, Repr

structure Station where
  state : StationState
  own : StationNo
  cause : ResetCause
  activePiece : Option Piece
  /-- PLAYING or REJOINING while HOLDING (R36) -/
  returnState : Option StationState
  finishing : Bool
  joinDeadline : Option Time
  companyDeadline : Option Time
  keepalive : Option Time
  startButton : Qualifier
  stopButton : Qualifier
  deriving DecidableEq, Repr

/-! ## Roster (1.8) -/

/-- A peer's announced piece (R17). -/
inductive AnnouncedPiece where
  | unknown
  | none
  | piece (n : Piece)
  deriving DecidableEq, Repr

/-- The last mark of a peer (R19). State and piece are kept as the bytes the frame carried. -/
structure LastMark where
  pm : Pos
  lm : Int
  state : Byte
  piece : Byte
  received : Time
  offset : Option Int
  consumed : Bool
  deriving DecidableEq, Repr

structure RosterEntry where
  /-- `none` is the class "unknown" -/
  cls : Option InstrClass
  pinned : Bool
  /-- `none` is the state "unknown" -/
  announced : Option StationState
  piece : AnnouncedPiece
  presence : Time
  lastMark : Option LastMark
  frames : BitVec 16
  outliers : BitVec 16
  unusable : BitVec 16
  deriving DecidableEq, Repr

/-! ## Cue port (chapter 9) -/

/-- The content of a frame after its kind character (09, the frame table). -/
inductive Payload where
  | stop (reason : Byte)
  | start (piece : Byte) (startBar : BitVec 16) (lead : Byte) (period : BitVec 24)
  | release (piece hold : Byte)
  | mark (pos : BitVec 32) (len : BitVec 24) (bar : BitVec 16) (state piece hold : Byte)
  | mute (mask : BitVec 32) (piece : Byte) (startBar stopBar : BitVec 16) (onOff : Byte)
  | report (source level count : Byte) (detail : BitVec 16) (queried : Byte)
  | announce (cls state piece cause : Byte)
  | query (target : Byte)
  | svcRequest (target op : Byte) (addr : BitVec 16) (data : BitVec 64)
  | svcReply (requester status : Byte) (addr : BitVec 16) (data : BitVec 64)
  deriving DecidableEq, Repr

/-- A frame of this station in the transmit queue. MARK, ANNOUNCE and REPORT are filled at each attempt; the others carry their payload (R152). The kind tells the originating block. -/
inductive TxFrame where
  | mark
  | announce
  /-- bound to `item` or to none; an answer to `requester`, or spontaneous (R161, R164) -/
  | report (item : Option Source) (requester : Option StationNo)
  | start (piece : Byte) (startBar : BitVec 16) (lead : Byte) (period : BitVec 24)
  | stop (reason : Byte)
  | release (piece hold : Byte)
  /-- `ofLeave` marks the reply to an accepted LEAVE_SERVICE (R14) -/
  | svcReply (requester : StationNo) (status : SvcStatus) (addr : BitVec 16) (data : BitVec 64) (ofLeave : Bool)
  deriving DecidableEq, Repr

/-- An entry of the transmit queue (R152). -/
structure TxEntry where
  frame : TxFrame
  cls : Nat
  attempts : Nat
  queuedAt : Time
  deriving DecidableEq, Repr

/-- The attempt in progress: the entry being sent, the payload taken at its first bit, and when it began (9.3, R152). -/
structure Attempt where
  entry : TxEntry
  payload : Payload
  started : Time
  deriving DecidableEq, Repr

/-- The receive stage (R155): waiting for a start bit; receiving a frame; listening on after an attempt this station abandoned (R150). -/
inductive RxStage where
  | waiting
  | receiving
  | listening
  deriving DecidableEq, Repr

structure Port where
  quietSince : Option Time
  /-- no moment before this one counts as quiet: the validation that set the rate, or the last start bit seen of another station (R147) -/
  listenFrom : Time
  /-- a frame whose start bit had no command of its own is not taken up where it began before this moment: until then the line is not known to have been recessive for 12 bit times (R155, R147; log 61) -/
  acceptFrom : Time
  yieldOwed : Bool
  attempt : Option Attempt
  failedAttempts : Nat
  mutedUntil : Option Time
  /-- the unsent entries in queue order; the entry being sent is in `attempt` -/
  unsent : List TxEntry
  rx : RxStage
  crcErrors : BitVec 16
  framingErrors : BitVec 16
  unknownKind : BitVec 16
  arbitrationLosses : BitVec 16
  txFailures : BitVec 16
  txOverflow : BitVec 16
  deriving DecidableEq, Repr

/-! ## Ensemble clock (2.1) -/

/-- What the scan found at the start bar (R34). -/
structure FoundBar where
  bpb : Nat
  bar : Nat
  tempo : Option Int
  deriving DecidableEq, Repr

/-- The start position; provisional while nothing is found (R33, R34). -/
structure StartPosition where
  pos : Pos
  found : Option FoundBar
  deriving DecidableEq, Repr

/-- The entry bar once found (R43). -/
structure EntryBar where
  pos : Pos
  bpb : Nat
  bar : Nat
  deriving DecidableEq, Repr

/-- The hold state (2.1, R26, R36). -/
structure HoldState where
  number : Nat
  pos : Pos
  start : Time
  limit : Time
  owner : Bool
  ownerDeadline : Option Time
  markDeadline : Option Time
  deriving DecidableEq, Repr

/-- The sign of an offset. -/
inductive Sign where
  | negative | zero | positive
  deriving DecidableEq, Repr

/-- One of the marks since the last update (2.1, R28, R29). -/
structure MarkNote where
  peer : StationNo
  outlier : Bool
  sign : Sign
  deriving DecidableEq, Repr

structure Clock where
  /-- false while the position is unset (R21) -/
  isSet : Bool
  pb : Pos
  b : Time
  pf : Pos
  l : Int
  tScore : Int
  d : Int
  bpb : Nat
  beatInBar : Nat
  bar : Nat
  start : Option StartPosition
  entryThreshold : Option Pos
  entryBar : Option EntryBar
  hold : Option HoldState
  remembered : Option Nat
  lastPassed : Option Nat
  marks : List MarkNote
  selfOutliers : Nat
  deriving DecidableEq, Repr

/-! ## Reader (3.1) -/

/-- The next record: its index and the position the chain of deltas gives it (R47). -/
structure Cursor where
  index : Nat
  pos : Pos
  deriving DecidableEq, Repr

/-- A pending bar change (R52). -/
structure BarChange where
  pos : Pos
  bpb : Nat
  bar : Nat
  deriving DecidableEq, Repr

/-- The read meter and the scan meter (R52, R58). -/
structure Meter where
  barStart : Pos
  bpb : Nat
  bar : Nat
  change : Option BarChange
  deriving DecidableEq, Repr

/-- The kinds of timeline events with their arguments (R51). A DAMP event keeps the damper channels it has still to apply to (R121). -/
inductive EventKind where
  | tempo (us : Nat)
  | bar (bpb number : Nat)
  | hold (number : Nat) (owner : Bool) (ms : Nat) (limit : Nat)
  | damp (raise : Bool) (channels : BitVec 24)
  | rotor (target : Nat)
  | endOfPart
  deriving DecidableEq, Repr

structure TimelineEvent where
  pos : Pos
  kind : EventKind
  deriving DecidableEq, Repr

/-- A roll in the roll table (3.6). -/
structure RollRecord where
  voice : Nat
  velocity : Nat
  next : Pos
  ends : Pos
  /-- stroke interval in ticks -/
  interval : Nat
  nextPreferred : Chan
  deriving DecidableEq, Repr

/-- The mute window (R55). -/
structure MuteWindow where
  piece : Byte
  startBar : Nat
  stopBar : Nat
  deriving DecidableEq, Repr

/-- What the scan looks for (R59): the bar number START gave, or the clock's entry threshold. -/
inductive ScanTarget where
  | startBar (n : Nat)
  | entry
  deriving DecidableEq, Repr

/-- The scan state (3.1, R58). -/
structure Scan where
  target : ScanTarget
  cursor : Cursor
  /-- the first record at the position of the record taken last: where reading would resume (R60 step 3) -/
  groupStart : Cursor
  meter : Meter
  /-- the line the meter stands on has not been tested yet (the line of bar 1 at the start) -/
  lineUntested : Bool
  tempo : Option Nat
  lastHold : Option Nat
  dampers : Vector (Option Bool) 24
  rotor : Option Nat
  /-- the HOLD, DAMP and ROTOR records taken at a position where a BAR or TEMPO record still lay ahead: noted when the line there has failed the target, dropped when it has met it (R60; log 58) -/
  held : List EventKind
  deriving DecidableEq, Repr

structure Reader where
  state : ReaderState
  /-- the 2 µs of the item taken last end here (R48, R58) -/
  busyUntil : Time
  cursor : Option Cursor
  meter : Option Meter
  /-- oldest first (R52) -/
  barMap : List (Pos × Nat)
  timeline : List TimelineEvent
  rolls : Vector (Option RollRecord) 4
  mute : Option MuteWindow
  scan : Option Scan
  deriving DecidableEq, Repr

/-! ## Planner (4.1) -/

/-- PLANNED with its deferred flag, or ARMED with what arming fixes (4.1). -/
inductive StrikePhase where
  | planned (deferred : Bool)
  | armed (chosen : Chan) (written effective : Time)
  deriving DecidableEq, Repr

structure StrikeEntry where
  pos : Pos
  voice : Nat
  velocity : Nat
  preferred : Chan
  other : Option Chan
  roll : Bool
  phase : StrikePhase
  projected : Option Time
  width : Time
  flight : Time
  weak : Bool
  deriving DecidableEq, Repr

inductive ClaimKind where
  | strike
  | damper
  deriving DecidableEq, Repr

/-- A waiting claim; `due` is the written fire time of a strike, the due time of a damper (R81). -/
structure Claim where
  due : Time
  channel : Chan
  kind : ClaimKind
  deriving DecidableEq, Repr

structure Planner where
  queue : List StrikeEntry
  claims : List Claim
  deriving DecidableEq, Repr

/-! ## Striker channels (5.2) -/

structure Pulse where
  start : Time
  width : Time
  flight : Time
  written : Time
  weak : Bool
  late : Bool
  roll : Bool
  band : Band
  ends : Time
  deriving DecidableEq, Repr

structure Channel where
  disabled : Option DisableCause
  pulse : Option Pulse
  recoveryEnd : Option Time
  trim : Int
  misses : Nat
  fired : BitVec 16
  confirmed : BitVec 16
  missed : BitVec 16
  dropped : BitVec 16
  weak : BitVec 16
  deriving DecidableEq, Repr

/-! ## Hit monitor (6.1) -/

structure Latch where
  impact : Time
  edgeUsed : Bool
  deriving DecidableEq, Repr

structure SensorInput where
  asserted : Bool
  run : Nat
  latch : Option Latch
  stuck : Bool
  stuckDeadline : Option Time
  quietUntil : Option Time
  deriving DecidableEq, Repr

structure ConfirmRecord where
  channel : Chan
  input : Chan
  expected : Time
  opens : Time
  closes : Time
  isOpen : Bool
  weak : Bool
  late : Bool
  cut : Bool
  roll : Bool
  band : Band
  deriving DecidableEq, Repr

/-! ## Dampers and rotor (7.1, 7.5) -/

/-- A position check and its deadline (R124). -/
structure DamperCheck where
  raise : Bool
  deadline : Time
  deriving DecidableEq, Repr

structure Damper where
  targetRaised : Bool
  state : DamperState
  pullInEnd : Option Time
  check : Option DamperCheck
  deriving DecidableEq, Repr

structure Rotor where
  target : Nat
  pendingTarget : Option Nat
  duty : Nat
  window : Nat
  zeroBeats : Nat
  deriving DecidableEq, Repr

/-! ## Rail monitor (8.1) -/

structure Rail where
  /-- the last eight samples, oldest first -/
  history : List Nat
  accepted : Nat
  /-- the first sample after the reset has been taken (R132) -/
  sampled : Bool
  band : Band
  judging : Bool
  downRun : Nat
  cutRun : Nat
  upRun : Nat
  deriving DecidableEq, Repr

/-! ## Attention unit (10.2) -/

structure AttentionItem where
  count : Nat
  firstDetail : BitVec 16
  timeOfFirst : BitVec 16
  deriving DecidableEq, Repr

structure Attention where
  items : Vector (Option AttentionItem) 33
  holdOff : Bool
  /-- the model's own: the moment of the last clearing, unless a spontaneous REPORT queued at that moment outlived it, for the QUERY that falls there (R161, R164; log 78) -/
  clearedAt : Option Time
  deriving DecidableEq, Repr

/-! ## Service handler and score store (chapter 11) -/

/-- The service handler (R171). `leaving true`: the reply to LEAVE_SERVICE has left the queue, and the reset falls in the same command (R14). -/
inductive Handler where
  | unoccupied
  | programming (addr : Nat) (data : BitVec 64) (requester : StationNo) (ends : Time)
  | erasing (addr : Nat) (requester : StationNo) (ends : Time)
  | leaving (replyGone : Bool)
  deriving DecidableEq, Repr

/-- The score store: the listed bytes, addresses strictly rising, none of them erased; an unlisted byte reads 0xFF (log 6). -/
abbrev Memory := List Host.Cell

/-! ## The whole part -/

structure State where
  /-- local time (00); 0 while the part is held in reset -/
  now : Time
  /-- the commands that wait, first in, first out: the model's own field -/
  pending : List Instr
  /-- RESET_N is low -/
  resetNLow : Bool
  supply : SupplyState
  /-- the record of having been powered (R142) -/
  powered : Bool
  /-- the level of STN4–STN0 (log 8) -/
  straps : StationNo
  station : Station
  /-- by station number (R15) -/
  roster : Vector (Option RosterEntry) 32
  port : Port
  clock : Clock
  reader : Reader
  planner : Planner
  channels : Vector Channel 24
  inputs : Vector SensorInput 24
  /-- the confirm list, in list order (6.1) -/
  confirm : List ConfirmRecord
  dampers : Vector Damper 24
  rotor : Rotor
  rail : Rail
  attention : Attention
  handler : Handler
  store : Memory
  options : Options
  parts : Vector PartStatus 16
  /-- advances at each interrupted program or erase; the index of the free values `Config.freeByte` (log 19): the model's own field -/
  freeCount : Nat
  deriving DecidableEq, Repr

/-- Reasons to stop with a fault. The spec gives every command an effect in every state, so there is none: no meaning raises a fault. -/
inductive Fault where
  deriving DecidableEq, Repr

/-- Reasons to refuse a command. -/
inductive Refusal where
  /-- Raised by `exec` alone, for a row of the table that has no meaning yet; no row is in that case. Safe: nothing is claimed of such a command. -/
  | notModelled (mnemonic : String)
  deriving DecidableEq, Repr

/-! ## Values after a part reset -/

/-- An UNUSED channel record (R85); its other settings are never read. -/
def ChannelSettings.unused : ChannelSettings :=
  { kind := .unused, mode := .edge, output := 0, input := 0, baseW := 0, slopeW := 0, minW := 0, maxW := 0,
    flightMin := 0, flightSpan := 0, recBase := 0, recRatio := 0, damperLead := 0 }

/-- The factory settings of R2, R134 and 10.1. DESIGN CHOICE (log 7): a setting those tables do not list takes the default of its chapter. -/
def Options.factory : Options :=
  { bitTime := 4, presenceTimeout := 1000000, cls := .service, markInterval := .everyBeat, markAge := 2,
    gainPhase := 4, gainFreq := 2, capture := 1920, holdLimit := 8, defaultTempo := 500000, defaultBpb := 4,
    defaultLead := 4, defaultPiece := 0, lookAhead := 2, lateTol := 15000, driveSlots := 8, nom := 144,
    depth := 8, cut := 96, warn := 120, hyst := 4, winEarly := 3000, winLate := 6000, rotorGain := 2,
    reportThreshold := 4, protectStart := 64, weights := Vector.replicate 32 none, pins := [],
    promo1 := 0, promo2 := 0, voices := Vector.replicate 128 (none, none),
    channels := Vector.replicate 24 ChannelSettings.unused }

/-- A qualifier after a part reset (R8): pressed. The pin level is the pin's own. -/
def Qualifier.atReset (asserted : Bool) : Qualifier := { state := .pressed, asserted := asserted, since := 0 }

/-- Station controller after a part reset (1.1). -/
def Station.atReset (own : StationNo) (cause : ResetCause) (startLevel stopLevel : Bool) : Station :=
  { state := .offline, own := own, cause := cause, activePiece := none, returnState := none, finishing := false,
    joinDeadline := none, companyDeadline := none, keepalive := none,
    startButton := .atReset startLevel, stopButton := .atReset stopLevel }

/-- Cue port after a part reset (9.3, R152, R157). DESIGN CHOICE (log 70): the receive stage waits, and its two moments are 0. -/
def Port.atReset : Port :=
  { quietSince := none, listenFrom := 0, acceptFrom := 0, yieldOwed := false, attempt := none, failedAttempts := 0, mutedUntil := none,
    unsent := [], rx := .waiting, crcErrors := 0, framingErrors := 0, unknownKind := 0, arbitrationLosses := 0,
    txFailures := 0, txOverflow := 0 }

/-- Clock after a part reset (R21). -/
def Clock.atReset : Clock :=
  { isSet := true, pb := 0, b := 0, pf := 0, l := 500000, tScore := 500000, d := 0, bpb := 4, beatInBar := 1, bar := 1,
    start := none, entryThreshold := none, entryBar := none, hold := none, remembered := none, lastPassed := none,
    marks := [], selfOutliers := 0 }

/-- Reader after a part reset (3.1). -/
def Reader.atReset : Reader :=
  { state := .idle, busyUntil := 0, cursor := none, meter := none, barMap := [], timeline := [],
    rolls := Vector.replicate 4 none, mute := none, scan := none }

/-- A channel after a part reset (R87). -/
def Channel.atReset : Channel :=
  { disabled := none, pulse := none, recoveryEnd := none, trim := 0, misses := 0,
    fired := 0, confirmed := 0, missed := 0, dropped := 0, weak := 0 }

/-- A sensor input after a part reset (R117). -/
def SensorInput.atReset : SensorInput :=
  { asserted := false, run := 0, latch := none, stuck := false, stuckDeadline := none, quietUntil := none }

/-- A damper after a part reset (R120). -/
def Damper.atReset : Damper := { targetRaised := false, state := .lowered, pullInEnd := none, check := none }

/-- The rotor after a part reset (7.5). -/
def Rotor.atReset : Rotor := { target := 0, pendingTarget := none, duty := 0, window := 0, zeroBeats := 0 }

/-- The rail monitor after a part reset, before its first sample (8.1). DESIGN CHOICE (log 14): the history and the reading stand at 0 until the sample of local time 0 fills them. -/
def Rail.atReset : Rail :=
  { history := List.replicate 8 0, accepted := 0, sampled := false, band := .cut, judging := false,
    downRun := 0, cutRun := 0, upRun := 0 }

/-- The attention unit after a part reset (10.2, R163). -/
def Attention.atReset : Attention := { items := Vector.replicate 33 none, holdOff := false, clearedAt := none }

/-- Right after the reset of power-on: out of reset, OFFLINE, local time 0. DESIGN CHOICE (log 5, 6, 7, 8, 13): cause POWER, straps 0, buttons released, store erased, factory settings. -/
def State.reset : State :=
  { now := 0, pending := [], resetNLow := false, supply := .good, powered := true, straps := 0,
    station := .atReset 0 .power false false, roster := Vector.replicate 32 none, port := .atReset, clock := .atReset,
    reader := .atReset, planner := { queue := [], claims := [] }, channels := Vector.replicate 24 .atReset,
    inputs := Vector.replicate 24 .atReset, confirm := [], dampers := Vector.replicate 24 .atReset, rotor := .atReset,
    rail := .atReset, attention := .atReset, handler := .unoccupied, store := [], options := .factory,
    parts := Vector.replicate 16 .noPart, freeCount := 0 }

end Sys2Proof.Machine
end

