-- ==== Sys2Proof/Machine/Arith.lean ====
section
/-! DEFINITION. The arithmetic of 00, Rounding and Counters: the three roundings of a quotient, clamping, saturating counters, and multiples of a beat. -/

set_option Elab.async false

namespace Sys2Proof.Machine

/-- RHU of `n / d` for `d > 0`: half up, toward plus infinity (00, Rounding). -/
def rhu (n d : Int) : Int := (2 * n + d) / (2 * d)

/-- RHAZ of `n / d` for `d > 0`: half away from zero (00, Rounding). -/
def rhaz (n d : Int) : Int := if 0 ≤ n then (2 * n + d) / (2 * d) else -((2 * (-n) + d) / (2 * d))

/-- TRUNC of `n / d`: toward zero (00, Rounding). -/
def trunc (n d : Int) : Int := Int.tdiv n d

/-- Clamp to `a … b` (00, Rounding). -/
def clamp (a b x : Int) : Int := if x < a then a else if b < x then b else x

/-- Clamp of a count. -/
def clampNat (a b x : Nat) : Nat := if x < a then a else if b < x then b else x

/-- A saturating 16-bit counter steps (00, Counters). -/
def step16 (c : BitVec 16) : BitVec 16 := if c = 0xFFFF then c else c + 1

/-- A count that stops at `m`. -/
def stepTo (m c : Nat) : Nat := if c < m then c + 1 else c

/-- The largest multiple of a beat at or below `p`. -/
def floorBeat (p : Pos) : Pos := p / Config.beat * Config.beat

/-- The smallest multiple of a beat that is at least `p`. -/
def ceilBeat (p : Pos) : Pos := -(-p / Config.beat) * Config.beat

/-- The sign of an offset (R28). -/
def signOf (x : Int) : Sign := if x < 0 then .negative else if x = 0 then .zero else .positive

/-- The later of a time that may be none and another. -/
def laterOf (a : Option Time) (b : Time) : Time := match a with
  | some x => max x b
  | none => b

end Sys2Proof.Machine
end

