-- ==== Sys2Proof/Machine/Ops.lean ====
section
/-! DEFINITION. The named operations over the score store, and the accessors of the numbered records of the part: roster slots, channels, inputs, dampers, attention items. -/

set_option Elab.async false

namespace Sys2Proof.Machine

/-! ## The score store (R167) -/

/-- What an unlisted byte of the store reads as: erased (log 6). -/
def Memory.unlisted : Byte := 0xFF

/-- Number of bytes of the store. -/
def Memory.size : Nat := 65536

/-- The byte at an address. -/
def Memory.read : Memory → Nat → Byte
  | [], _ => Memory.unlisted
  | (k, v) :: rest, a => if k = a then v else Memory.read rest a

/-- One byte takes a value; the canonical form is kept. -/
def Memory.write : Memory → Nat → Byte → Memory
  | [], a, v => if v = Memory.unlisted then [] else [(a, v)]
  | (k, w) :: rest, a, v =>
    if a < k then (if v = Memory.unlisted then (k, w) :: rest else (a, v) :: (k, w) :: rest)
    else if a = k then (if v = Memory.unlisted then rest else (a, v) :: rest)
    else (k, w) :: Memory.write rest a v

/-- Every listed address is above `lo` and rising, inside the store, and no listed byte reads as an unlisted one. -/
def Memory.wfFrom : Nat → Memory → Bool
  | _, [] => true
  | lo, (k, v) :: rest => lo ≤ k && k < Memory.size && v != Memory.unlisted && Memory.wfFrom (k + 1) rest

/-- The canonical form of the store. -/
def Memory.wf (m : Memory) : Bool := Memory.wfFrom 0 m

/-- `n` bytes from an address on. -/
def Memory.bytes (m : Memory) (a : Nat) : Nat → List Byte
  | 0 => []
  | n + 1 => m.read a :: Memory.bytes m (a + 1) n

/-- A two-byte field, most significant byte first (R167). -/
def Memory.u16 (m : Memory) (a : Nat) : Nat := (m.read a).toNat * 256 + (m.read (a + 1)).toNat

/-- A three-byte field, most significant byte first. -/
def Memory.u24 (m : Memory) (a : Nat) : Nat := m.u16 a * 256 + (m.read (a + 2)).toNat

/-- Byte `k` (0 first) of the eight data bytes of a service frame. -/
def dataByte (d : BitVec 64) (k : Nat) : Byte := d.extractLsb' (8 * (7 - k)) 8

/-- Eight bytes as the data of a service frame; missing bytes are 0. -/
def dataOf (bs : List Byte) : BitVec 64 :=
  (List.range 8).foldl (fun acc k => acc <<< 8 ||| (bs.getD k 0).setWidth 64) 0

/-- The eight bytes from an address on, as the data of a service frame (R172). -/
def Memory.word (m : Memory) (a : Nat) : BitVec 64 := dataOf (m.bytes a 8)

/-- The store after each byte from `a` on, `n` of them, has been given by `f` from its address and its old value. -/
def Memory.update (m : Memory) (a : Nat) (f : Nat → Byte → Byte) : Nat → Memory
  | 0 => m
  | n + 1 => Memory.update (Memory.write m a (f a (Memory.read m a))) (a + 1) f n

/-- Programming: each byte becomes the AND of its old value and the value written (R167). -/
def Memory.program (m : Memory) (a : Nat) (d : BitVec 64) : Memory :=
  m.update a (fun x old => old &&& dataByte d (x - a)) 8

/-- The sector that holds an address (R173). -/
def sectorOf (a : Nat) : Nat := a / 1024

/-- Erasing: the 1,024 bytes of a sector become 0xFF (R167). -/
def Memory.erase (m : Memory) (sector : Nat) : Memory :=
  m.filter (fun c => sectorOf c.1 != sector)

/-- Every byte of a sector reads 0xFF: in the canonical form, no byte of it is listed (R168, R173). -/
def Memory.erased (m : Memory) (sector : Nat) : Bool :=
  m.all (fun c => sectorOf c.1 != sector || c.2 == Memory.unlisted)

/-- An interrupted program: each bit of a byte that the program would clear is kept or cleared, free which (R176). -/
def Memory.programCut (m : Memory) (a : Nat) (d : BitVec 64) (free : Nat) : Memory :=
  m.update a (fun x old => (old &&& dataByte d (x - a)) ||| (old &&& Config.freeByte free x)) 8

/-- An interrupted erase: each clear bit of the sector stays clear or is set, free which (R176). -/
def Memory.eraseCut (m : Memory) (sector : Nat) (free : Nat) : Memory :=
  m.update (sector * 1024) (fun x old => old ||| Config.freeByte free x) 1024

/-! ## The CRC (R145) -/

/-- One bit enters the CRC. -/
def crcBit (v : BitVec 16) (b : Bool) : BitVec 16 := if v.msb != b then (v <<< 1) ^^^ 0x1021 else v <<< 1

/-- One byte enters the CRC, most significant bit first. -/
def crcByte (v : BitVec 16) (x : Byte) : BitVec 16 :=
  [7, 6, 5, 4, 3, 2, 1, 0].foldl (fun acc i => crcBit acc (x.getLsbD i)) v

/-- The CRC of a run of bytes. -/
def crc16 (bs : List Byte) : BitVec 16 := bs.foldl crcByte 0xFFFF

/-! ## Accessors -/

/-- The part is held in reset by RESET_N or by the logic-supply monitor (R1, R141). -/
def State.held (s : State) : Bool := s.resetNLow || s.supply == .low

/-- Local time reaches the moment of a command; it never steps back (log 1). -/
def State.advance (s : State) (t : Nat) : State := { s with now := max s.now t }

def State.settings (s : State) (c : Chan) : ChannelSettings := s.options.channels[c]
def State.channel (s : State) (c : Chan) : Channel := s.channels[c]
def State.input (s : State) (i : Chan) : SensorInput := s.inputs[i]
def State.damper (s : State) (c : Chan) : Damper := s.dampers[c]
def State.peer (s : State) (n : StationNo) : Option RosterEntry := s.roster[n]

def State.setChannel (s : State) (c : Chan) (x : Channel) : State := { s with channels := s.channels.set c x }
def State.setInput (s : State) (i : Chan) (x : SensorInput) : State := { s with inputs := s.inputs.set i x }
def State.setDamper (s : State) (c : Chan) (x : Damper) : State := { s with dampers := s.dampers.set c x }
def State.setPeer (s : State) (n : StationNo) (x : Option RosterEntry) : State := { s with roster := s.roster.set n x }
def State.setStation (s : State) (x : Station) : State := { s with station := x }
def State.setPort (s : State) (x : Port) : State := { s with port := x }
def State.setClock (s : State) (x : Clock) : State := { s with clock := x }
def State.setReader (s : State) (x : Reader) : State := { s with reader := x }
def State.setPlanner (s : State) (x : Planner) : State := { s with planner := x }
def State.setConfirm (s : State) (x : List ConfirmRecord) : State := { s with confirm := x }
def State.setRotor (s : State) (x : Rotor) : State := { s with rotor := x }
def State.setRail (s : State) (x : Rail) : State := { s with rail := x }
def State.setAttention (s : State) (x : Attention) : State := { s with attention := x }
def State.setHandler (s : State) (x : Handler) : State := { s with handler := x }

/-- Every channel, output, input and damper number, in order. -/
def allChannels : List Chan := List.finRange 24

/-- Every station number, in order. -/
def allStations : List StationNo := List.finRange 32

/-- The channels of kind STRIKER that name input `i` (R105). -/
def State.strikersOn (s : State) (i : Chan) : List Chan :=
  allChannels.filter fun c => (s.settings c).kind == .striker && (s.settings c).input == i

/-- The channels of kind DAMPER that name input `i` (R124). -/
def State.dampersOn (s : State) (i : Chan) : List Chan :=
  allChannels.filter fun c => (s.settings c).kind == .damper && (s.settings c).input == i

/-- A hit input: some STRIKER channel names it (6.1). -/
def State.isHitInput (s : State) (i : Chan) : Bool := !(s.strikersOn i).isEmpty

/-- A watched input: some STRIKER or DAMPER channel names it (6.1). -/
def State.isWatched (s : State) (i : Chan) : Bool := s.isHitInput i || !(s.dampersOn i).isEmpty

/-- The mode of an input: that of the channels that name it, all the same (R85). -/
def State.inputMode (s : State) (i : Chan) : SensorMode :=
  match s.strikersOn i with
  | c :: _ => (s.settings c).mode
  | [] => .edge

/-- The station is in one of the playing states (00, Station states). -/
def StationState.playingState : StationState → Bool
  | .countin | .rejoining | .playing | .holding => true
  | _ => false

/-! ## Codes on the line (09) -/

def StationState.code : StationState → Byte
  | .offline => 0 | .listening => 1 | .ready => 2 | .countin => 3 | .rejoining => 4
  | .playing => 5 | .holding => 6 | .halted => 7 | .service => 8

/-- The station state a byte names, if any (R17). -/
def StationState.ofCode (b : Byte) : Option StationState :=
  [.offline, .listening, .ready, .countin, .rejoining, .playing, .holding, .halted, .service][b.toNat]?

def InstrClass.code : InstrClass → Byte
  | .marimba => 1 | .vibraphone => 2 | .percussion => 3 | .showControl => 4 | .service => 5

/-- The class a byte names, if any (R18). -/
def InstrClass.ofCode (b : Byte) : Option InstrClass :=
  if b = 1 then some .marimba else if b = 2 then some .vibraphone else if b = 3 then some .percussion
  else if b = 4 then some .showControl else if b = 5 then some .service else none

def ResetCause.code : ResetCause → Byte
  | .power => 0 | .supply => 1 | .pin => 2 | .service => 3

def SvcStatus.code : SvcStatus → Byte
  | .done => 0 | .busy => 1 | .wrongState => 2 | .protectedSector => 3 | .range => 4 | .align => 5 | .failed => 6

/-- The piece a byte names, if it is one of the 16 (R4, R17). -/
def pieceOf (b : Byte) : Option Piece := if h : b.toNat < 16 then some ⟨b.toNat, h⟩ else none

/-- The byte of a piece, 0xFF for none (09). -/
def pieceByte : Option Piece → Byte
  | some p => BitVec.ofNat 8 p.val
  | none => 0xFF

/-- The byte of a station number. -/
def stationByte (n : StationNo) : Byte := BitVec.ofNat 8 n.val

end Sys2Proof.Machine
end

