-- ==== Sys2Proof/Machine/OptionBlock.lean ====
section
/-! DEFINITION. The layouts of the option block, the channel records, the directory and the event records (11.2), and validation (R168, R169, R85, R134). -/

set_option Elab.async false

namespace Sys2Proof.Machine

/-- A number as a channel number, when it is one. -/
def chanOf (n : Nat) : Option Chan := if h : n < 24 then some ⟨n, h⟩ else none

/-- A number as a station number, when it is one. -/
def stationOf (n : Nat) : Option StationNo := if h : n < 32 then some ⟨n, h⟩ else none

/-- A byte as a Nat. -/
def Memory.u8 (m : Memory) (a : Nat) : Nat := (m.read a).toNat

/-- Address of channel record `c` (11.2). -/
def channelRecordAddr (c : Nat) : Nat := 0x200 + 16 * c

/-- The settings of channel record `c`, or `none` when the record fails R85. An UNUSED record is not looked into. -/
def parseChannel (m : Memory) (c : Nat) : Option ChannelSettings :=
  let a := channelRecordAddr c
  let code := m.u8 a
  let mode : SensorMode := if code = 2 ∨ code = 4 then .edgeLevel else .edge
  if code = 0 then some ChannelSettings.unused
  else if code = 1 ∨ code = 2 then
    match chanOf (m.u8 (a + 1)), chanOf (m.u8 (a + 2)) with
    | some out, some inp =>
      let baseW := m.u16 (a + 5)
      let minW := m.u16 (a + 7)
      let maxW := m.u16 (a + 9)
      let flightMin := m.u16 (a + 11)
      let flightSpan := m.u16 (a + 13)
      let recBase := m.u8 (a + 15)
      if 200 ≤ baseW ∧ baseW ≤ 20000 ∧ 1 ≤ minW ∧ minW ≤ maxW ∧ maxW ≤ 30000 ∧ flightMin ≤ 40000 ∧ flightSpan ≤ 40000
          ∧ recBase ≤ 200 then
        some { kind := .striker, mode := mode, output := out, input := inp, baseW := baseW, slopeW := m.u8 (a + 3),
               minW := minW, maxW := maxW, flightMin := flightMin, flightSpan := flightSpan,
               recBase := 500 * recBase, recRatio := m.u8 (a + 4), damperLead := 0 }
      else none
    | _, _ => none
  else if code = 3 ∨ code = 4 then
    match chanOf (m.u8 (a + 1)), chanOf (m.u8 (a + 2)) with
    | some out, some inp =>
      let lead := m.u16 (a + 5)
      if lead ≤ 50000 then
        some { ChannelSettings.unused with kind := .damper, mode := mode, output := out, input := inp, damperLead := lead }
      else none
    | _, _ => none
  else none

/-- All 24 channel records, or `none` when one of them fails. -/
def parseChannels (m : Memory) : Option (Vector ChannelSettings 24) :=
  let rs := Vector.ofFn fun c : Chan => parseChannel m c
  if rs.all Option.isSome then some (rs.map fun r => r.getD ChannelSettings.unused) else none

/-- A channel that names an output and an input: STRIKER or DAMPER (R85). -/
def ChannelSettings.used (c : ChannelSettings) : Bool := c.kind != .unused

/-- The two cross-checks of R85: no output named twice, shared inputs with one mode. -/
def channelsAgree (cs : Vector ChannelSettings 24) : Bool :=
  allChannels.all fun i => allChannels.all fun j =>
    i == j || !cs[i].used || !cs[j].used
      || (cs[i].output != cs[j].output && (cs[i].input != cs[j].input || cs[i].mode == cs[j].mode))

/-- The two channel bytes of a voice, or `none` when R168 fails for it. -/
def parseVoice (m : Memory) (cs : Vector ChannelSettings 24) (v : Nat) : Option (Option Chan × Option Chan) :=
  let p := m.u8 (0x100 + 2 * v)
  let a := m.u8 (0x101 + 2 * v)
  let striker : Nat → Option Chan := fun n => (chanOf n).filter fun c => cs[c].kind == .striker
  if p = 0xFF then some (none, none)
  else match striker p with
    | none => none
    | some pc =>
      if a = 0xFF then some (some pc, none)
      else match striker a with
        | none => none
        | some ac => some (some pc, if ac = pc then none else some ac)

/-- The voice map, or `none` when one voice fails. -/
def parseVoices (m : Memory) (cs : Vector ChannelSettings 24) : Option (Vector (Option Chan × Option Chan) 128) :=
  let vs := Vector.ofFn fun v : Fin 128 => parseVoice m cs v
  if vs.all Option.isSome then some (vs.map fun v => v.getD (none, none)) else none

/-- The weight table (R20), or `none` when a byte is neither 0–7 nor 0x80. -/
def parseWeights (m : Memory) : Option (Vector (Option Nat) 32) :=
  let ok := (List.range 32).all fun n => m.u8 (0x20 + n) ≤ 7 || m.u8 (0x20 + n) == 0x80
  if ok then some (Vector.ofFn fun n : StationNo =>
    if m.u8 (0x20 + n) = 0x80 then none else some (m.u8 (0x20 + n)))
  else none

/-- One pin: `none` when it fails R168; `some none` when unused. -/
def parsePin (m : Memory) (k : Nat) : Option (Option (StationNo × InstrClass)) :=
  let st := m.u8 (0x40 + 2 * k)
  if st = 0xFF then some none
  else match stationOf st, InstrClass.ofCode (m.read (0x41 + 2 * k)) with
    | some n, some c => some (some (n, c))
    | _, _ => none

/-- The used pins, or `none` when one fails or two name one station (R18, R168). -/
def parsePins (m : Memory) : Option (List (StationNo × InstrClass)) :=
  let ps := (List.range 4).map (parsePin m)
  if ps.all Option.isSome then
    let used := ps.filterMap fun p => p.getD none
    if (used.map Prod.fst).Nodup then some used else none
  else none

/-- The plain settings of the option block whose value is one number in a range, with that range (R168). -/
def settingsInRange (m : Memory) : Bool :=
  m.u8 0x000 ≤ 2 && (1 ≤ m.u8 0x001 && m.u8 0x001 ≤ 16) && (1 ≤ m.u8 0x002 && m.u8 0x002 ≤ 5) && m.u8 0x003 ≤ 2
    && (1 ≤ m.u8 0x004 && m.u8 0x004 ≤ 8) && (1 ≤ m.u8 0x005 && m.u8 0x005 ≤ 16) && m.u8 0x006 ≤ 15
    && (64 ≤ m.u16 0x007 && m.u16 0x007 ≤ 7680) && (1 ≤ m.u8 0x009 && m.u8 0x009 ≤ 60)
    && (200000 ≤ m.u24 0x00A && m.u24 0x00A ≤ 2000000) && (1 ≤ m.u8 0x00D && m.u8 0x00D ≤ 15)
    && (1 ≤ m.u8 0x00E && m.u8 0x00E ≤ 8) && m.u8 0x00F ≤ 15 && (1 ≤ m.u8 0x010 && m.u8 0x010 ≤ 4)
    && m.u16 0x011 ≤ 50000 && (1 ≤ m.u8 0x013 && m.u8 0x013 ≤ 24)
    && m.u16 0x019 ≤ 10000 && m.u16 0x01B ≤ 10000 && (1 ≤ m.u8 0x01D && m.u8 0x01D ≤ 8)
    && (1 ≤ m.u8 0x01E && m.u8 0x01E ≤ 8) && m.u8 0x01F ≤ 64

/-- The rail settings (R134). -/
def railSettingsValid (depth cut warn hyst nom : Nat) : Bool :=
  (depth == 1 || depth == 2 || depth == 4 || depth == 8) && (1 ≤ cut && cut ≤ 254) && cut < warn && hyst ≤ 32
    && warn + hyst ≤ 255 && nom != 0

/-- The CRC of the option block matches (11.2). -/
def optionCrcOk (m : Memory) : Bool := (crc16 (m.bytes 0 0x3FE)).toNat == m.u16 0x3FE

/-- The option block as settings, when it is valid (R168); `none` when it is blank or invalid. -/
def parseOptions (m : Memory) : Option Options :=
  if m.erased 0 then none
  else if !(optionCrcOk m && settingsInRange m
      && railSettingsValid (m.u8 0x015) (m.u8 0x016) (m.u8 0x017) (m.u8 0x018) (m.u8 0x014)) then none
  else match parseChannels m with
    | none => none
    | some cs =>
      if !channelsAgree cs then none
      else match parseVoices m cs, parseWeights m, parsePins m with
        | some vs, some ws, some ps => some
          { bitTime := if m.u8 0x000 = 0 then 4 else if m.u8 0x000 = 1 then 2 else 1
            presenceTimeout := 100000 * m.u8 0x001
            cls := (InstrClass.ofCode (m.read 0x002)).getD .service
            markInterval := if m.u8 0x003 = 0 then .everyBeat else if m.u8 0x003 = 1 then .everySecondBeat else .barFirst
            markAge := m.u8 0x004, gainPhase := m.u8 0x005, gainFreq := m.u8 0x006, capture := m.u16 0x007
            holdLimit := m.u8 0x009, defaultTempo := m.u24 0x00A, defaultBpb := m.u8 0x00D, defaultLead := m.u8 0x00E
            defaultPiece := (pieceOf (m.read 0x00F)).getD 0
            lookAhead := m.u8 0x010, lateTol := m.u16 0x011, driveSlots := m.u8 0x013, nom := m.u8 0x014
            depth := m.u8 0x015, cut := m.u8 0x016, warn := m.u8 0x017, hyst := m.u8 0x018
            winEarly := m.u16 0x019, winLate := m.u16 0x01B, rotorGain := m.u8 0x01D, reportThreshold := m.u8 0x01E
            protectStart := m.u8 0x01F, weights := ws, pins := ps, promo1 := m.u8 0x048, promo2 := m.u8 0x049
            voices := vs, channels := cs }
        | _, _, _ => none

/-- What validation finds of piece `n` (R169). -/
def checkPart (m : Memory) (n : Nat) : PartStatus :=
  let a := 0x400 + 16 * n
  if m.u8 a ≠ 0xA5 then .noPart
  else
    let start := m.u16 (a + 2)
    let count := m.u16 (a + 4)
    if start % 8 = 0 ∧ 0x800 ≤ start ∧ start + 8 * count ≤ Memory.size
        ∧ (crc16 (m.bytes start (8 * count))).toNat = m.u16 (a + 6) then .valid start count
    else .invalid

/-- What validation finds of all 16 pieces. -/
def checkParts (m : Memory) : Vector PartStatus 16 := Vector.ofFn fun n : Piece => checkPart m n

/-! ## Event records (11.2, R47) -/

/-- An event record's content. -/
inductive Record where
  | event (k : EventKind)
  | strike (voice velocity : Nat)
  | roll (voice velocity duration interval : Nat)
  | unknown
  deriving DecidableEq, Repr

/-- The delta, in ticks, of the record at an address. -/
def recordDelta (m : Memory) (a : Nat) : Nat := m.u16 (a + 1)

/-- The content of the record at an address (11.2). -/
def recordAt (m : Memory) (a : Nat) : Record :=
  match m.u8 a with
  | 1 => .event (.bar (m.u8 (a + 4)) (m.u16 (a + 5)))
  | 2 => .event (.tempo (m.u24 (a + 5)))
  | 3 => .strike (m.u8 (a + 3)) (m.u8 (a + 4))
  | 4 => .roll (m.u8 (a + 3)) (m.u8 (a + 4)) (m.u16 (a + 5)) (m.u8 (a + 7))
  | 5 => .event (.damp (m.read (a + 3) != 0) (BitVec.ofNat 24 (m.u24 (a + 5))))
  | 6 => .event (.rotor (m.u8 (a + 4)))
  | 7 => .event (.hold (m.u8 (a + 3)) (m.read (a + 4) != 0) (m.u16 (a + 5)) (m.u8 (a + 7)))
  | 8 => .event .endOfPart
  | _ => .unknown

/-- Start address and record count of the active part; an empty part when there is none. -/
def State.activePart (s : State) : Nat × Nat :=
  match s.station.activePiece with
  | none => (0, 0)
  | some p => match s.parts[p] with
    | .valid start count => (start, count)
    | _ => (0, 0)

/-- The cursor at the first record (R47). -/
def State.firstCursor (s : State) : Cursor :=
  let (start, count) := s.activePart
  { index := 0, pos := if count = 0 then 0 else 16 * recordDelta s.store start }

/-- The cursor after the record at `c`: the next delta added, or the implicit END at the same position (R47, R169). -/
def State.nextCursor (s : State) (c : Cursor) : Cursor :=
  let (start, count) := s.activePart
  { index := c.index + 1
    pos := if c.index + 1 < count then c.pos + 16 * recordDelta s.store (start + 8 * (c.index + 1)) else c.pos }

/-- The record at a cursor: an END beyond the last record and beyond the largest position (R47, R169). -/
def State.recordAtCursor (s : State) (c : Cursor) : Record :=
  let (start, count) := s.activePart
  if Config.maxPosition < c.pos ∨ count ≤ c.index then .event .endOfPart else recordAt s.store (start + 8 * c.index)

/-- The position a cursor's record is read at (R47). -/
def Cursor.position (c : Cursor) : Pos := min c.pos Config.maxPosition

end Sys2Proof.Machine
end

