-- ==== Sys2Proof/Machine/Attention.lean ====
section
/-! DEFINITION. The attention unit: sources, effective levels and the attention order (R159), and raising (R160). -/

set_option Elab.async false

namespace Sys2Proof.Machine

/-! ## Sources (10.1); the number of a source is one more than its index -/

def srcClash : Source := 0
def srcRailCut : Source := 1
def srcLineFault : Source := 2
def srcChannelStuck : Source := 3
def srcChannelMisses : Source := 4
def srcRotorStall : Source := 5
def srcDamperFault : Source := 6
def srcRailLow : Source := 7
def srcPartInvalid : Source := 8
def srcSelfResync : Source := 9
def srcPeerLost : Source := 10
def srcCapabilityMismatch : Source := 11
def srcDroppedLate : Source := 12
def srcDroppedCut : Source := 13
def srcDroppedChannel : Source := 14
def srcRejoined : Source := 15
def srcHoldTimeout : Source := 16
def srcLateRelease : Source := 17
def srcOutlier : Source := 18
def srcMiss : Source := 19
def srcStray : Source := 20
def srcWeak : Source := 21
def srcStartIgnored : Source := 22
def srcRollDegraded : Source := 23
def srcUnassignedVoice : Source := 24
def srcUnknownRecord : Source := 25

/-- CHECK_n for n from 1 to 7: source 26 + n (R165). -/
def srcCheck (n : Nat) : Option Source := if h : 1 ≤ n ∧ n ≤ 7 then some ⟨25 + n, by omega⟩ else none

/-- The number of a source, 1–33. -/
def sourceNumber (x : Source) : Nat := x.val + 1

/-- The default levels, sources 1 to 33 in order (10.1). -/
def defaultLevels : List Nat :=
  [7, 7, 6, 5, 5, 5, 5, 4, 4, 4, 3, 3, 3, 3, 3, 3, 2, 2, 2, 2, 2, 2, 2, 1, 1, 1, 1, 2, 3, 4, 5, 6, 7]

def defaultLevel (x : Source) : Nat := defaultLevels.getD x.val 0

/-- The source a promotion slot uses: a source number 1–33 of default level below 7 (R159). -/
def usedSlot (n : Nat) : Option Source :=
  if h : 1 ≤ n ∧ n ≤ 33 then
    let x : Source := ⟨n - 1, by omega⟩
    if defaultLevel x < 7 then some x else none
  else none

/-- The sources the two slots promote; a second slot that names the first one's source is unused (R159). -/
def promoted (o : Options) : Option Source × Option Source :=
  let a := usedSlot o.promo1
  let b := usedSlot o.promo2
  (a, if b = a then none else b)

/-- Whether a slot promotes a source. -/
def isPromoted (o : Options) (x : Source) : Bool := (promoted o).1 == some x || (promoted o).2 == some x

/-- The effective level of a source (R159). -/
def effectiveLevel (o : Options) (x : Source) : Nat := if isPromoted o x then 6 else defaultLevel x

/-- A source's place within its level: slot 1, then slot 2, then ascending source number (R159). -/
def levelRank (o : Options) (x : Source) : Nat :=
  if (promoted o).1 = some x then 0 else if (promoted o).2 = some x then 1 else 2 + x.val

/-- `x` stands before `y` in the attention order (R159). -/
def attentionBefore (o : Options) (x y : Source) : Bool :=
  effectiveLevel o y < effectiveLevel o x
    || (effectiveLevel o x == effectiveLevel o y && levelRank o x < levelRank o y)

/-- Every source, in number order. -/
def allSources : List Source := List.finRange 33

/-- The place of a source in the attention order, 1–33 (R175). -/
def attentionPlace (o : Options) (x : Source) : Nat := (allSources.filter fun y => attentionBefore o y x).length + 1

/-- The first source of a list in the attention order. -/
def firstInOrder (o : Options) : List Source → Option Source
  | [] => none
  | x :: xs => match firstInOrder o xs with
    | none => some x
    | some y => if attentionBefore o y x then some y else some x

/-- The item pending for a source. -/
def State.item (s : State) (x : Source) : Option AttentionItem := s.attention.items[x]

/-- The highest pending item (10.2). -/
def State.highestPending (s : State) : Option Source :=
  firstInOrder s.options (allSources.filter fun x => (s.item x).isSome)

/-- An effective level qualifies for spontaneous reporting (R162). -/
def qualifies (o : Options) (x : Source) : Bool := o.reportThreshold ≤ effectiveLevel o x || effectiveLevel o x == 7

/-- The first qualifying item in the attention order (R162). -/
def State.firstQualifying (s : State) : Option Source :=
  firstInOrder s.options (allSources.filter fun x => (s.item x).isSome && qualifies s.options x)

/-- The low 16 bits of the local time in whole milliseconds (10.2). -/
def millisecondStamp (now : Time) : BitVec 16 := BitVec.ofInt 16 (trunc now 1000)

/-- What a raise makes of a source's item (R160). -/
def raisedItem (old : Option AttentionItem) (detail : Nat) (now : Time) : AttentionItem :=
  match old with
  | none => { count := 1, firstDetail := BitVec.ofNat 16 detail, timeOfFirst := millisecondStamp now }
  | some it => { it with count := stepTo 255 it.count }

/-- A block raises a source (R160). -/
def State.raise (s : State) (x : Source) (detail : Nat) : State :=
  { s with attention :=
      { s.attention with items := s.attention.items.set x (some (raisedItem s.attention.items[x] detail s.now)) } }

/-- A spontaneous REPORT that was queued now outlives the clearing of `x`: it is bound to another item (R161). -/
def State.reportOutlives (s : State) (x : Source) : Bool :=
  s.port.unsent.any fun e => e.queuedAt == s.now && match e.frame with
    | .report b none => b != some x
    | _ => false

/-- The item of a source is cleared (R161). Its moment is kept for a QUERY that falls there, where the spontaneous REPORT is offered behind the clearing or not at all (log 78). -/
def State.clearItem (s : State) (x : Source) : State :=
  { s with attention := { s.attention with
      items := s.attention.items.set x none, clearedAt := if s.reportOutlives x then none else some s.now } }

end Sys2Proof.Machine
end

