-- ==== Sys2Proof/Machine/Clock.lean ====
section
/-! DEFINITION. The ensemble clock's position and time arithmetic (R22, R70), the meter (R24), the follow update (R30, R31), follow weights (R20) and the rejoin reference's arithmetic (R42). -/

set_option Elab.async false

namespace Sys2Proof.Machine

/-- The clock runs (R21). -/
def State.clockRuns (s : State) : Bool :=
  match s.station.state with
  | .countin | .playing => true
  | .rejoining => s.clock.isSet
  | _ => false

/-- The position of a running clock at local time `t` (R22); it never exceeds Pb + 7,679 (log 15). -/
def Clock.positionAt (c : Clock) (t : Time) : Pos :=
  max c.pf (min (c.pb + (Config.beat - 1)) (c.pb + trunc ((t - c.b) * Config.beat) c.l))

/-- The station's position now: the hold position in HOLDING (R22). -/
def State.position (s : State) : Pos :=
  match s.station.state, s.clock.hold with
  | .holding, some h => h.pos
  | _, _ => s.clock.positionAt s.now

/-- The time of a position by the clock as it stands (R70). -/
def Clock.timeOf (c : Clock) (p : Pos) : Time := c.b + rhu ((p - c.pb) * c.l) Config.beat

/-- The moment of the next beat boundary (R23). -/
def Clock.nextBoundary (c : Clock) : Time := c.b + c.l

/-- A boundary's first step: Pb, B and Pf (R23). -/
def Clock.nextBeat (c : Clock) : Clock :=
  { c with pb := c.pb + Config.beat, b := c.b + c.l, pf := c.pb + Config.beat }

/-- The meter advances a beat; the bar number moves only when `counting` (R24). -/
def Clock.advanceMeter (c : Clock) (counting : Bool) : Clock :=
  if c.beatInBar < c.bpb then { c with beatInBar := c.beatInBar + 1 }
  else { c with beatInBar := 1, bar := if counting then stepTo 65535 c.bar else c.bar }

/-- A BAR event takes effect (R24). -/
def Clock.takeBar (c : Clock) (bpb bar : Nat) : Clock := { c with bpb := clampNat 1 15 bpb, bar := bar, beatInBar := 1 }

/-- A TEMPO event takes effect (R25). -/
def clampTempo (us : Int) : Int := clamp 200000 2000000 us

/-- One timeline event at a boundary: BAR and TEMPO act, others do not (R24, R25). -/
def Clock.takeEvent (c : Clock) (e : TimelineEvent) : Clock :=
  match e.kind with
  | .bar bpb bar => c.takeBar bpb bar
  | .tempo us => { c with tScore := clampTempo us }
  | _ => c

/-- The event is a BAR or TEMPO event at or below `p`. -/
def TimelineEvent.boundaryEvent (e : TimelineEvent) (p : Pos) : Bool :=
  match e.kind with
  | .bar _ _ | .tempo _ => e.pos ≤ p
  | _ => false

/-- The boundary takes its BAR and TEMPO events, in list order, and removes them (R23 step 4). -/
def State.takeBoundaryEvents (s : State) : State :=
  let due := s.reader.timeline.filter fun e => e.boundaryEvent s.clock.pb
  { s with
    clock := due.foldl Clock.takeEvent s.clock
    reader := { s.reader with timeline := s.reader.timeline.filter fun e => !e.boundaryEvent s.clock.pb } }

/-! ## Weights and fresh marks -/

/-- The weight of a class (R20). -/
def classWeight : Option InstrClass → Nat
  | some .percussion => 6
  | some .marimba => 4
  | some .vibraphone => 3
  | some .showControl | some .service => 0
  | none => 1

/-- The follow weight of a peer now (R20). -/
def followWeight (o : Options) (n : StationNo) (e : RosterEntry) : Nat :=
  match o.weights[n] with
  | some w => w
  | none => classWeight e.cls

/-- The offset of a fresh mark with its weight, when the entry gives one; `l` is the beat length just ended (R30). -/
def freshOffset (o : Options) (now : Time) (l : Int) (n : StationNo) (e : RosterEntry) : Option (Int × Int) :=
  match e.lastMark with
  | some m => match m.offset with
    | some off =>
      if !m.consumed ∧ now - m.received ≤ o.markAge * l ∧ 1 ≤ followWeight o n e then
        some ((followWeight o n e : Int), off)
      else none
    | none => none
  | none => none

/-- The fresh marks of the roster, in station order (R30). -/
def State.freshMarks (s : State) (l : Int) : List (Int × Int) :=
  allStations.filterMap fun n => (s.peer n).bind fun e => freshOffset s.options s.now l n e

/-- E, the weighted mean offset (R30). -/
def meanOffset (ms : List (Int × Int)) : Int :=
  if ms = [] then 0 else rhaz (ms.map fun m => m.1 * m.2).sum (ms.map fun m => m.1).sum

/-- The entry's fresh mark becomes consumed (R30). -/
def consumeFresh (o : Options) (now : Time) (l : Int) (n : StationNo) (e : RosterEntry) : RosterEntry :=
  if (freshOffset o now l n e).isSome then { e with lastMark := e.lastMark.map fun m => { m with consumed := true } } else e

/-- Every offset held becomes consumed (R33, R40, R42). -/
def consumeOffset (e : RosterEntry) : RosterEntry :=
  { e with lastMark := e.lastMark.map fun m => if m.offset.isSome then { m with consumed := true } else m }

def State.consumeOffsets (s : State) : State :=
  { s with roster := s.roster.map fun e => e.map consumeOffset }

/-- C of R31. -/
def phaseCorrection (o : Options) (e : Int) : Int := clamp (-768) 768 (rhaz (e * o.gainPhase) 16)

/-- The new trim (R31 step 2). -/
def newTrim (o : Options) (d e : Int) : Int := clamp (-3277) 3277 (d + trunc (e * o.gainFreq) 64)

/-- T_eff (R31 step 3). -/
def effectiveTempo (tScore d : Int) : Int := rhu (tScore * (65536 - d)) 65536

/-- The new beat length (R31 step 4). -/
def newBeatLength (tEff c : Int) : Int := clamp 180000 2200000 (rhu (tEff * (7680 - c)) 7680)

/-- The corrections of one follow update (R31). -/
def Clock.follow (c : Clock) (o : Options) (e : Int) : Clock :=
  let d := newTrim o c.d e
  { c with d := d, l := newBeatLength (effectiveTempo c.tScore d) (phaseCorrection o e) }

/-- The follow update of a boundary (R30, R31); `l` is the beat length just ended. -/
def State.followUpdate (s : State) (l : Int) : State :=
  { s with
    clock := s.clock.follow s.options (meanOffset (s.freshMarks l))
    roster := Vector.ofFn fun n : StationNo => (s.peer n).map (consumeFresh s.options s.now l n) }

/-- The marks since the last update speak of this station being out: two peers or more, all outliers, one sign (R32). -/
def selfOutlying (ms : List MarkNote) : Bool :=
  match ms with
  | [] => false
  | m :: _ => ms.all (fun x => x.outlier && x.sign == m.sign) && ms.any (fun x => x.peer != m.peer)

/-! ## The rejoin reference (R41, R42) -/

/-- The mark shows COUNTIN or PLAYING for a piece. -/
def LastMark.playingMark (m : LastMark) (p : Option Piece) : Bool :=
  (m.state == StationState.countin.code || m.state == StationState.playing.code) && p.isSome && m.piece == pieceByte p

/-- The entry announces COUNTIN or PLAYING and the active piece (R41). -/
def RosterEntry.playingPeer (e : RosterEntry) (p : Option Piece) : Bool :=
  (e.announced == some .countin || e.announced == some .playing) && p.isSome
    && (match p with | some q => e.piece == .piece q | none => false)

/-- The qualifying mark of an entry, if it has one now (R41). -/
def State.qualifyingMark (s : State) (e : RosterEntry) : Option LastMark :=
  if e.playingPeer s.station.activePiece then
    e.lastMark.filter fun m =>
      m.playingMark s.station.activePiece && decide (s.now - m.received ≤ s.options.markAge * m.lm)
  else none

/-- A mark carried forward to now (R42 step 1); for L = 0 the result is not stated (log 18). -/
def LastMark.carried (m : LastMark) (now : Time) : Pos :=
  if m.lm = 0 then Config.zeroBeatCarry m.pm else m.pm + rhu ((now - m.received) * Config.beat) m.lm

/-- The qualifying marks with their weights w′, in station order (R42). -/
def State.referenceMarks (s : State) : List (Int × LastMark) :=
  allStations.filterMap fun n => (s.peer n).bind fun e =>
    (s.qualifyingMark e).map fun m => (max (followWeight s.options n e : Int) 1, m)

/-- The number n of playing peers (R41). -/
def State.playingPeers (s : State) : Nat :=
  (allStations.filter fun n => match s.peer n with
    | some e => e.playingPeer s.station.activePiece
    | none => false).length

/-- The reference can be established (R41). -/
def State.referenceReady (s : State) : Bool :=
  s.station.state == .rejoining && !s.clock.isSet && 1 ≤ s.playingPeers
    && min 2 s.playingPeers ≤ s.referenceMarks.length

/-- The clock that the reference sets (R42). -/
def State.referenceClock (s : State) : Clock :=
  let ms := s.referenceMarks
  let w := (ms.map fun m => m.1).sum
  let ref := rhaz (ms.map fun m => m.1 * m.2.carried s.now).sum w
  let l := clamp 180000 2200000 (rhu (ms.map fun m => m.1 * m.2.lm).sum w)
  let pb := floorBeat ref
  { s.clock with
    isSet := true, pb := pb, b := s.now - rhu ((ref - pb) * l) Config.beat, pf := ref, l := l,
    tScore := clampTempo l, d := 0, bpb := s.options.defaultBpb, beatInBar := 1, bar := 0, marks := [],
    entryThreshold := some (ceilBeat (ref + Config.beat)), entryBar := none, selfOutliers := 0 }

end Sys2Proof.Machine
end

