-- ==== Sys2Proof/Machine/Operands.lean ====
section
/-! DEFINITION. Frames as characters (09, the frame table, R145, R155) and what a frame of this station is filled with at the first bit of an attempt (R12, R27, R161). -/

set_option Elab.async false

namespace Sys2Proof.Machine

/-! ## Filling (R152) -/

/-- An integer as a signed 32-bit field; a value outside the field's range is free. -/
def signedField (free : Int → BitVec 32) (x : Int) : BitVec 32 :=
  if -2147483648 ≤ x ∧ x ≤ 2147483647 then BitVec.ofInt 32 x else free x

/-- The position a MARK filled now carries (R27). -/
def State.markPosition (s : State) : Pos :=
  match s.station.state with
  | .holding => s.position
  | _ => s.position + trunc (160 * s.options.bitTime * Config.beat) s.clock.l

/-- The hold number a MARK carries (R27). -/
def State.markHold (s : State) : Nat :=
  match s.station.state, s.clock.hold with
  | .holding, some h => h.number
  | _, _ => 0

/-- A MARK's payload (R27). DESIGN CHOICE (log 47): a MARK whose failed or lost attempt has left it unsent in another state carries that state and the clock as it stands then. -/
def State.markPayload (s : State) : Payload :=
  .mark (signedField (Config.positionField s.now) s.markPosition) (BitVec.ofInt 24 s.clock.l) (BitVec.ofNat 16 s.clock.bar)
    s.station.state.code (pieceByte s.station.activePiece) (BitVec.ofNat 8 s.markHold)

/-- An ANNOUNCE's payload (R12). -/
def State.announcePayload (s : State) : Payload :=
  .announce s.options.cls.code s.station.state.code (pieceByte s.station.activePiece) s.station.cause.code

/-- The last field of a REPORT (R161). -/
def queriedField (requester : Option StationNo) : Byte :=
  match requester with
  | none => 0
  | some n => 0x80 ||| stationByte n

/-- A REPORT's payload (R161). -/
def State.reportPayload (s : State) (item : Option Source) (requester : Option StationNo) : Payload :=
  match item with
  | none => .report 0 0 0 0 (queriedField requester)
  | some x => match s.item x with
    | some it => .report (BitVec.ofNat 8 (sourceNumber x)) (BitVec.ofNat 8 (effectiveLevel s.options x))
        (BitVec.ofNat 8 it.count) it.firstDetail (queriedField requester)
    | none => .report (BitVec.ofNat 8 (sourceNumber x)) (BitVec.ofNat 8 (effectiveLevel s.options x)) 0 0
        (queriedField requester)

/-- The payload an attempt on a frame takes (R152). -/
def State.fill (s : State) : TxFrame → Payload
  | .mark => s.markPayload
  | .announce => s.announcePayload
  | .report item requester => s.reportPayload item requester
  | .start piece startBar lead period => .start piece startBar lead period
  | .stop reason => .stop reason
  | .release piece hold => .release piece hold
  | .svcReply requester status addr data _ => .svcReply (stationByte requester) status.code addr data

/-! ## Kinds, classes and characters -/

/-- The code of a payload's kind (09). -/
def Payload.kindCode : Payload → Byte
  | .announce _ _ _ _ => 0x1
  | .mark _ _ _ _ _ _ => 0x2
  | .start _ _ _ _ => 0x3
  | .stop _ => 0x4
  | .release _ _ => 0x5
  | .mute _ _ _ _ _ => 0x6
  | .report _ _ _ _ _ => 0x7
  | .query _ => 0x8
  | .svcRequest _ _ _ _ => 0x9
  | .svcReply _ _ _ _ => 0xA

/-- The class of a payload's kind; of a REPORT, by its effective level (09). -/
def Payload.cls : Payload → Nat
  | .stop _ => 0
  | .start _ _ _ _ | .release _ _ => 1
  | .mark _ _ _ _ _ _ => 2
  | .mute _ _ _ _ _ => 3
  | .report _ level _ _ _ => if 6 ≤ level.toNat then 3 else 5
  | .announce _ _ _ _ => 4
  | .query _ => 5
  | .svcRequest _ _ _ _ => 6
  | .svcReply _ _ _ _ => 7

/-- A field of `n` bytes, most significant byte first (09). -/
def fieldBytes {w : Nat} (x : BitVec w) (n : Nat) : List Byte :=
  (List.range n).map fun k => x.extractLsb' (8 * (n - 1 - k)) 8

/-- The payload's characters in order of transmission (09). -/
def Payload.bytes : Payload → List Byte
  | .stop reason => [reason]
  | .start piece startBar lead period => piece :: fieldBytes startBar 2 ++ [lead] ++ fieldBytes period 3
  | .release piece hold => [piece, hold]
  | .mark pos len bar state piece hold => fieldBytes pos 4 ++ fieldBytes len 3 ++ fieldBytes bar 2 ++ [state, piece, hold]
  | .mute mask piece startBar stopBar onOff =>
    fieldBytes mask 4 ++ [piece] ++ fieldBytes startBar 2 ++ fieldBytes stopBar 2 ++ [onOff]
  | .report source level count detail queried => [source, level, count] ++ fieldBytes detail 2 ++ [queried]
  | .announce cls state piece cause => [cls, state, piece, cause]
  | .query target => [target]
  | .svcRequest target op addr data => [target, op] ++ fieldBytes addr 2 ++ fieldBytes data 8
  | .svcReply requester status addr data => [requester, status] ++ fieldBytes addr 2 ++ fieldBytes data 8

/-- The precedence character: class × 32 + station (09). -/
def precedence (cls : Nat) (n : StationNo) : Byte := BitVec.ofNat 8 (cls * 32 + n.val)

/-- The characters of a frame less its CRC. -/
def Payload.body (p : Payload) (n : StationNo) : List Byte := precedence p.cls n :: p.kindCode :: p.bytes

/-- The characters of a frame, CRC included (R145). -/
def Payload.characters (p : Payload) (n : StationNo) : List Byte := p.body n ++ fieldBytes (crc16 (p.body n)) 2

/-- The two levels of the cue line (R144): dominant is 0, recessive is 1. -/
inductive Level where
  | dominant
  | recessive
  deriving DecidableEq, Repr

/-- The level that a bit of a character is sent as (R144). -/
def levelOf (bit : Bool) : Level := if bit then .recessive else .dominant

/-- Bit `k` of the ten bits of a character: a dominant start bit, the data bits from the most significant on, a recessive stop bit (R144). -/
def characterBit (x : Byte) (k : Nat) : Level :=
  if k = 0 then .dominant else if k ≤ 8 then levelOf (x.getLsbD (8 - k)) else .recessive

/-- Bit `k` of characters that follow one another with no idle time; recessive after the last (R144). -/
def bitOf (xs : List Byte) (k : Nat) : Level :=
  match xs[k / 10]? with
  | some x => characterBit x (k % 10)
  | none => .recessive

/-- Bit `k` of the frame that an attempt sends (R144). -/
def State.sentBit (s : State) (a : Attempt) (k : Nat) : Level := bitOf (a.payload.characters s.station.own) k

/-- The bit of an attempt that is being sent (R144). -/
def Attempt.bitIndex (a : Attempt) (now bitTime : Time) : Nat := ((now - a.started) / bitTime).toNat

/-- The bit times of a frame of `k` characters (R144). -/
def frameBits (k : Nat) : Nat := 10 * k

/-- Number of characters of a frame by its kind code; `none` for a code not in the table (09). -/
def charactersOfKind (code : Byte) : Option Nat :=
  [(0x1, 8), (0x2, 16), (0x3, 11), (0x4, 5), (0x5, 6), (0x6, 14), (0x7, 10), (0x8, 5), (0x9, 16), (0xA, 16)].lookup code.toNat

/-- The bit times of a frame of kind `kind`, in µs (R144). -/
def frameTime (kind : Nat) (bitTime : Time) : Time := (frameBits ((charactersOfKind (BitVec.ofNat 8 kind)).getD 0) : Int) * bitTime

/-- The class fits the kind (R145): the table's class, 3 or 5 for a REPORT. -/
def classFits (code : Byte) (cls : Nat) : Bool :=
  if code = 0x7 then cls == 3 || cls == 5
  else [(0x1, 4), (0x2, 2), (0x3, 1), (0x4, 0), (0x5, 1), (0x6, 3), (0x8, 5), (0x9, 6), (0xA, 7)].lookup code.toNat == some cls

/-- What the receive stage makes of a run of well-framed characters (R145, R155). -/
inductive Received where
  | valid (sender : StationNo) (kind : Byte) (payload : List Byte)
  | unknownKind
  | crcError
  | tooShort
  deriving DecidableEq, Repr

/-- The receive stage's judgment of the characters from a start bit on (R155). -/
def receive : List Byte → Received
  | prec :: kind :: rest =>
    match charactersOfKind kind with
    | none => .unknownKind
    | some k =>
      if !classFits kind (prec.toNat / 32) then .unknownKind
      else if rest.length < k - 2 then .tooShort
      else
        let chars := prec :: kind :: rest.take (k - 2)
        if crc16 chars = 0 then .valid ⟨prec.toNat % 32, Nat.mod_lt _ (by decide)⟩ kind (rest.take (k - 4))
        else .crcError
  | _ => .tooShort

end Sys2Proof.Machine
end

