-- ==== Sys2Proof/Machine/Port.lean ====
section
/-! DEFINITION. The cue port's transmit queue: offering, displacing, withdrawing (R152, R153, R154), and the line-access conditions (R147, R148). -/

set_option Elab.async false

namespace Sys2Proof.Machine

/-- The entry is a spontaneous REPORT (R162). -/
def TxFrame.isSpontaneous : TxFrame → Bool
  | .report _ none => true
  | _ => false

/-- The entry is the reply to an accepted LEAVE_SERVICE (R14). -/
def TxFrame.isLeaveReply : TxFrame → Bool
  | .svcReply _ _ _ _ ofLeave => ofLeave
  | _ => false

def TxFrame.isMark : TxFrame → Bool
  | .mark => true
  | _ => false

def TxFrame.isAnnounce : TxFrame → Bool
  | .announce => true
  | _ => false

def TxFrame.isStart : TxFrame → Bool
  | .start _ _ _ _ => true
  | _ => false

def TxFrame.isStop : TxFrame → Bool
  | .stop _ => true
  | _ => false

def TxFrame.isRelease : TxFrame → Bool
  | .release _ _ => true
  | _ => false

/-- The REPORT is bound to source `x` (R161). -/
def TxFrame.boundTo (x : Source) : TxFrame → Bool
  | .report (some y) _ => x == y
  | _ => false

/-- The class of a frame as it is offered (R145, R161). -/
def txClass (o : Options) : TxFrame → Nat
  | .stop _ => 0
  | .start _ _ _ _ | .release _ _ => 1
  | .mark => 2
  | .report (some x) _ => if 6 ≤ effectiveLevel o x then 3 else 5
  | .report none _ => 5
  | .announce => 4
  | .svcReply _ _ _ _ _ => 7

/-- The kind code of a frame (09). -/
def TxFrame.kindCode : TxFrame → Nat
  | .announce => 0x1
  | .mark => 0x2
  | .start _ _ _ _ => 0x3
  | .stop _ => 0x4
  | .release _ _ => 0x5
  | .report _ _ => 0x7
  | .svcReply _ _ _ _ _ => 0xA

/-- Number of frames in the transmit queue, the one being sent included (R152). -/
def Port.length (p : Port) : Nat := p.unsent.length + (if p.attempt.isSome then 1 else 0)

/-- A new entry stands behind every entry of its own class or a lower one (R152). -/
def insertTx (e : TxEntry) : List TxEntry → List TxEntry
  | [] => [e]
  | x :: xs => if x.cls ≤ e.cls then x :: insertTx e xs else e :: x :: xs

/-- An entry whose attempt ended keeps its place: ahead of every entry of its own class (R149, R150). -/
def reinsertTx (e : TxEntry) : List TxEntry → List TxEntry
  | [] => [e]
  | x :: xs => if x.cls < e.cls then x :: reinsertTx e xs else e :: x :: xs

/-- An attempt ends and its frame is unsent again in its place; a MARK offered since then has taken the place of a MARK, for the queue never holds two unsent ones (R149, R150, R153; log 46). DESIGN CHOICE (log 89): the MARK that goes so clears no hold-off flag. -/
def returnTx (e : TxEntry) (xs : List TxEntry) : List TxEntry :=
  if e.frame.isMark && xs.any (fun x => x.frame.isMark) then xs else reinsertTx e xs

/-- The new MARK takes the place of the first unsent one (R153 test 1). -/
def replaceMark (e : TxEntry) : List TxEntry → List TxEntry
  | [] => []
  | x :: xs => if x.frame.isMark then e :: xs else x :: replaceMark e xs

/-- What an offer did to the queue. -/
structure Offered where
  port : Port
  /-- a victim left the queue -/
  victim : Option TxEntry
  /-- the frame itself was refused -/
  refused : Bool

/-- R153: an entry is offered to the queue. The victim is the last unsent entry, the one of greatest class. -/
def Port.offer (p : Port) (e : TxEntry) : Offered :=
  if e.frame.isMark && p.unsent.any (fun x => x.frame.isMark) then
    { port := { p with unsent := replaceMark e p.unsent }, victim := none, refused := false }
  else if p.length < Config.txDepth then
    { port := { p with unsent := insertTx e p.unsent }, victim := none, refused := false }
  else match p.unsent.getLast? with
    | some v =>
      if e.cls < v.cls then
        { port := { p with unsent := insertTx e p.unsent.dropLast }, victim := some v, refused := false }
      else { port := { p with txOverflow := step16 p.txOverflow }, victim := none, refused := true }
    | none => { port := { p with txOverflow := step16 p.txOverflow }, victim := none, refused := true }

/-- The entry that an offer reports DISPLACED (R153, R154). -/
def Offered.displaced (r : Offered) (e : TxEntry) : Option TxEntry := if r.refused then some e else r.victim

/-- The hold-off flag after frames have left the queue and an entry was lost (R163). DESIGN CHOICE (log 57): any frame that leaves after the REPORT was lost clears the flag, one that leaves in the same command among them. -/
def holdOffAfter (old left : Bool) (lost : Option TxEntry) : Bool :=
  match lost with
  | some e => e.frame.isSpontaneous || (old && !left)
  | none => old && !left

/-- The reply to LEAVE_SERVICE has left the queue: an accepted LEAVE_SERVICE goes on to its reset (R14). -/
def Handler.replyGone : Handler → Handler
  | .leaving _ => .leaving true
  | h => h

/-- The handler after an entry was lost: a lost reply to LEAVE_SERVICE brings the reset forward (R14). -/
def handlerAfter (h : Handler) (lost : Option TxEntry) : Handler :=
  match lost with
  | some e => if e.frame.isLeaveReply then h.replyGone else h
  | none => h

/-- A block offers a frame to the transmit queue (R153), with what the owner of a displaced frame does (R14, R163). -/
def State.offer (s : State) (f : TxFrame) : State :=
  let e : TxEntry := { frame := f, cls := txClass s.options f, attempts := 0, queuedAt := s.now }
  let r := s.port.offer e
  { s with
    port := r.port
    attention := { s.attention with holdOff := holdOffAfter s.attention.holdOff r.victim.isSome (r.displaced e) }
    handler := handlerAfter s.handler (r.displaced e) }

/-- The owners withdraw the unsent frames that `p` picks (R154); a frame that leaves clears the hold-off flag (R163). -/
def State.withdraw (s : State) (p : TxFrame → Bool) : State :=
  { s with
    port := { s.port with unsent := s.port.unsent.filter fun e => !p e.frame }
    attention := { s.attention with
      holdOff := s.attention.holdOff && !s.port.unsent.any (fun e => p e.frame) } }

/-- An unsent frame that `p` picks is in the queue. -/
def Port.hasUnsent (pt : Port) (p : TxFrame → Bool) : Bool := pt.unsent.any fun e => p e.frame

/-- A spontaneous REPORT is in the queue, unsent or being sent (R162). -/
def Port.hasSpontaneous (pt : Port) : Bool :=
  pt.hasUnsent TxFrame.isSpontaneous
    || (match pt.attempt with | some a => a.entry.frame.isSpontaneous | none => false)

/-- The attention unit offers a spontaneous REPORT where R162 allows one. -/
def State.offerReport (s : State) : State :=
  if s.station.state = .offline ∨ s.station.state = .listening ∨ s.port.hasSpontaneous ∨ s.attention.holdOff then s
  else match s.firstQualifying with
    | some x => s.offer (.report (some x) none)
    | none => s

/-- The recessive gap an attempt needs, in µs (R147). -/
def State.gapNeeded (s : State) : Time :=
  (Config.quietGapBits + if s.port.yieldOwed then Config.yieldGapBits else 0) * s.options.bitTime

/-- Since when the line has been recessive: what LINE_RX shows, and no moment before the one the port listens from (R147, R155). -/
def Port.recessiveFrom (p : Port) (recessiveSince : Time) : Time := max recessiveSince p.listenFrom

/-- Since when the line counts as quiet: the port's own record of the last frame end, what LINE_RX shows, and no moment before validation (R147). -/
def Port.quietFrom (p : Port) (recessiveSince : Time) : Time := laterOf p.quietSince (p.recessiveFrom recessiveSince)

/-! ## The receive stage (R147, R155) -/

/-- The 12 recessive bit times that a start bit needs before it, in µs (R147, R155). -/
def quietGap (bitTime : Time) : Time := Config.quietGapBits * bitTime

/-- The receive stage waits for a start bit after 12 recessive bit times, the line recessive from `since` on (R155). -/
def Port.waitsFrom (p : Port) (since bitTime : Time) : Port :=
  { p with rx := .waiting, acceptFrom := since + quietGap bitTime }

/-- A start bit of another station: the line is dominant now, so nothing before this moment counts as recessive (R147, R155). -/
def Port.dominantAt (p : Port) (now bitTime : Time) : Port :=
  { p with quietSince := none, listenFrom := now, acceptFrom := now + quietGap bitTime }

/-- The receive stage has taken up a frame that began at `began`: it is in a reception, or the line had been recessive for 12 bit times there (R155, R150; log 61). -/
def Port.hearsFrom (p : Port) (began : Time) : Bool := p.rx != .waiting || p.acceptFrom ≤ began

/-- A frame of this moment has reached its frame end already (R146). -/
def Port.endedAt (p : Port) (now : Time) : Bool := decide (p.quietSince = some now)

/-- The receive stage has taken up a frame that ends now after `duration` (R155). What ends at the very moment of another frame end is received in either order (R164, R6; log 77). -/
def Port.hears (p : Port) (now duration : Time) : Bool := p.hearsFrom (now - duration) || p.endedAt now

/-- Since when the line has been recessive, at the latest, at the frame end of a valid frame: a stop bit has passed (R144, R146, R155). -/
def stopBitFrom (now bitTime : Time) : Time := now - bitTime

/-- The frame end of a frame that is received, or sent whole: the line falls quiet, its last stop bit behind it (R146, R155). -/
def Port.frameEnds (p : Port) (now bitTime : Time) : Port :=
  { p.waitsFrom (stopBitFrom now bitTime) bitTime with quietSince := some now }

/-- The frame end of a valid frame of another station that is received; its leading edge has cleared the yield, but for one that a frame of this station has owed since this very moment (R146, R147; log 77). -/
def Port.received (p : Port) (now bitTime : Time) : Port :=
  { p.frameEnds now bitTime with yieldOwed := p.endedAt now && p.yieldOwed }

/-- The spontaneous REPORT that was queued now stands behind every frame of its class (R161). -/
def Port.spontaneousLast (p : Port) (now : Time) : Port :=
  match p.unsent.find? fun e => e.frame.isSpontaneous && e.queuedAt == now with
  | some e => { p with unsent := insertTx e (p.unsent.erase e) }
  | none => p

/-- What the line carried was not taken up: the receive stage waits on, the line recessive from `since` on (R147, R155). -/
def Port.unheard (p : Port) (since bitTime : Time) : Port :=
  { p with quietSince := none, yieldOwed := false, acceptFrom := since + quietGap bitTime }

/-- The line falls quiet at the frame end of a frame received. -/
def State.lineQuiet (s : State) : State := s.setPort (s.port.received s.now s.options.bitTime)

/-- A quarter of the presence timeout (R12, R26). -/
def State.quarter (s : State) : Time := s.options.presenceTimeout / 4

/-- The states that keep a keepalive deadline (R12). -/
def StationState.keepsAlive : StationState → Bool
  | .offline | .listening => false
  | _ => true

end Sys2Proof.Machine
end

