-- ==== Sys2Proof/Machine/HitMonitor.lean ====
section
/-! DEFINITION. The hit monitor: qualifying inputs (R103), the latch (R104, R109), the confirm list and its resolutions (R107 to R114), trim learning (R116), and disabling channels (R97). -/

set_option Elab.async false

namespace Sys2Proof.Machine

/-! ## Qualifying (R103) -/

/-- One sample of an input: agreeing samples clear the run, the third differing one changes the level (R103). -/
def SensorInput.sample (x : SensorInput) (level : Bool) : SensorInput :=
  if level = x.asserted then { x with run := 0 }
  else if x.run + 1 < 3 then { x with run := x.run + 1 }
  else { x with asserted := level, run := 0 }

/-- Three samples of one level in a row (log 12). -/
def SensorInput.sample3 (x : SensorInput) (level : Bool) : SensorInput :=
  ((x.sample level).sample level).sample level

/-- A pulse is in progress on some STRIKER channel that names the input (R109; log 23). -/
def State.drivenOn (s : State) (i : Chan) : Bool := (s.strikersOn i).any fun c => (s.channel c).pulse.isSome

/-! ## The confirm list -/

/-- List order: window open time, then channel (6.1). -/
def ConfirmRecord.before (a b : ConfirmRecord) : Bool := a.opens < b.opens || (a.opens == b.opens && a.channel < b.channel)

/-- A record takes its place behind those that stand before it (R107). DESIGN CHOICE (log 74): of two records of one channel with equal open times the newcomer stands behind, and in a full list the older one is resolved first (R113). -/
def insertConfirm (r : ConfirmRecord) : List ConfirmRecord → List ConfirmRecord
  | [] => [r]
  | x :: xs => if r.before x then r :: x :: xs else x :: insertConfirm r xs

/-- The first record a test picks, with the list less that record. -/
def takeConfirm (p : ConfirmRecord → Bool) : List ConfirmRecord → Option (ConfirmRecord × List ConfirmRecord)
  | [] => none
  | x :: xs => if p x then some (x, xs) else (takeConfirm p xs).map fun r => (r.1, x :: r.2)

/-! ## Resolutions -/

/-- A record may teach its channel's trim (R116). -/
def ConfirmRecord.teaches (r : ConfirmRecord) : Bool :=
  !r.weak && !r.late && !r.cut && !r.roll && r.band == .normal

/-- The trim after a landing error (R116). -/
def learnedTrim (trim e : Int) : Int := clamp (-2000) 2000 (trim + rhaz e 8)

/-- The channel side of a confirmation; `e` is the landing error of an edge match (R111, R116). -/
def Channel.confirm (ch : Channel) (r : ConfirmRecord) (e : Option Int) : Channel :=
  { ch with
    confirmed := step16 ch.confirmed
    misses := 0
    trim := match e with
      | some x => if r.teaches then learnedTrim ch.trim x else ch.trim
      | none => ch.trim }

/-- The quiet-until time moves to at least `t` (R109). -/
def SensorInput.quiet (x : SensorInput) (t : Time) : SensorInput := { x with quietUntil := some (laterOf x.quietUntil t) }

/-- A record that has left the list is resolved CONFIRMED (R111). -/
def State.confirmed (s : State) (r : ConfirmRecord) (e : Option Int) : State :=
  let s := s.setChannel r.channel ((s.channel r.channel).confirm r e)
  s.setInput r.input ((s.input r.input).quiet (s.now + Config.bounceGuard))

/-- The channel side of a miss (R112). -/
def Channel.miss (ch : Channel) : Channel :=
  { ch with
    missed := step16 ch.missed
    misses := stepTo 3 ch.misses
    disabled := if ch.misses = 2 then some .misses else ch.disabled }

/-- A record that has left the list is resolved MISSED (R112). -/
def State.missed (s : State) (r : ConfirmRecord) : State :=
  let disables := (s.channel r.channel).misses = 2
  let s := (s.setChannel r.channel (s.channel r.channel).miss).raise srcMiss r.channel.val
  if disables then s.raise srcChannelMisses r.channel.val else s

/-- The latch's edge has been used: EDGE clears the latch, EDGE_LEVEL keeps it (R104). -/
def SensorInput.useEdge (x : SensorInput) (mode : SensorMode) : SensorInput :=
  match mode with
  | .edge => { x with latch := none }
  | .edgeLevel => { x with latch := x.latch.map fun l => { l with edgeUsed := true } }

/-- An edge match: a record that has left the list takes the input's assertion (R107). -/
def State.edgeMatch (s : State) (r : ConfirmRecord) (l : Latch) : State :=
  (s.setInput r.input ((s.input r.input).useEdge (s.inputMode r.input))).confirmed r (some (l.impact - r.expected))

/-- A window opens on a record that stands outside the list: when it takes the latch, by an edge match (R107) or a level match (R108), the part after that resolution. DESIGN CHOICE (log 55): the latch of an EDGE_LEVEL input that was judged just before the opening, no pulse driving, gives a level match. -/
def State.windowMatch (s : State) (r : ConfirmRecord) : Option State :=
  match (s.input r.input).latch with
  | some l =>
    if !l.edgeUsed then some (s.edgeMatch r l)
    else if s.inputMode r.input = .edgeLevel ∧ !(s.input r.input).stuck then some (s.confirmed r none)
    else none
  | none => none

/-- The first record a test picks has its window open. -/
def markFirstOpen (p : ConfirmRecord → Bool) : List ConfirmRecord → List ConfirmRecord
  | [] => []
  | x :: xs => if p x then { x with isOpen := true } :: xs else x :: markFirstOpen p xs

/-- A record whose open time had come when it was placed: its window opens at the placing, and closes unmatched at once if the close time has come too (R107). DESIGN CHOICE (log 56): where an assertion falls at that same moment, the order of the two commands decides, CONFIRMED or MISSED. -/
def State.placeOpen (s : State) (r : ConfirmRecord) : State :=
  match s.windowMatch r with
  | some s' => s'
  | none => if r.closes ≤ s.now then s.missed r else s.setConfirm (insertConfirm { r with isOpen := true } s.confirm)

/-- A confirm record is placed (R107), a full list first giving up the first of the 33 as MISSED (R113). -/
def State.placeRecord (s : State) (r : ConfirmRecord) : State :=
  if s.confirm.length < Config.confirmDepth then
    if r.opens ≤ s.now then s.placeOpen r else s.setConfirm (insertConfirm r s.confirm)
  else match s.confirm with
    | [] => s
    | x :: xs =>
      if r.before x then s.missed r
      else
        let s := (s.setConfirm xs).missed x
        if r.opens ≤ s.now then s.placeOpen r else s.setConfirm (insertConfirm r s.confirm)

/-- Every record is resolved ABANDONED (R114). -/
def State.abandonAll (s : State) : State :=
  { s with
    inputs := s.confirm.foldl (fun xs r => xs.set r.input (xs[r.input].quiet r.closes)) s.inputs
    confirm := [] }

/-! ## Assertions -/

/-- An assertion is judged unmatched: silent up to the quiet-until time, else a stray (R109). -/
def State.judgeUnmatched (s : State) (i : Chan) (l : Latch) : State :=
  let silent : Bool := match (s.input i).quietUntil with
    | some q => l.impact ≤ q
    | none => false
  let s := s.setInput i ((s.input i).useEdge (s.inputMode i))
  if silent then s else s.raise srcStray i.val

/-- A fresh assertion with impact time `impact` is matched, held or judged (R104, R107, R109). DESIGN CHOICE (log 53): at an EDGE input it takes the place of an assertion still held, which is never judged. DESIGN CHOICE (log 81): where a pulse on the input ends at this moment and its record opens before a window already open, the order of the two commands decides which record takes the assertion. -/
def State.judgeAssertion (s : State) (i : Chan) (impact : Time) : State :=
  let l : Latch := { impact := impact, edgeUsed := false }
  let s := s.setInput i { s.input i with latch := some l }
  match takeConfirm (fun r => r.input == i && r.isOpen) s.confirm with
  | some (r, rest) => (s.setConfirm rest).edgeMatch r l
  | none => if s.drivenOn i then s else s.judgeUnmatched i l

/-- The end of the hold of one input (R109): an unused edge with no pulse in progress on the input is judged unmatched. -/
def State.endHold (s : State) (i : Chan) : State :=
  match (s.input i).latch with
  | some l => if !l.edgeUsed ∧ s.isHitInput i ∧ !s.drivenOn i then s.judgeUnmatched i l else s
  | none => s

/-- Holds that have ended are judged (R109). DESIGN CHOICE (log 75): several that end at one moment are judged by ascending input number. DESIGN CHOICE (log 54): a hold is tested at the end of the command, so it lives on where a freed slot has started another pulse on the input. -/
def State.endHolds (s : State) : State := allChannels.foldl State.endHold s

/-! ## Disabling and enabling -/

/-- A STRIKER channel is disabled STUCK, with its CHANNEL_STUCK (R97, R105). -/
def State.disableStuck (s : State) (c : Chan) : State :=
  (s.setChannel c { s.channel c with disabled := some .stuck }).raise srcChannelStuck c.val

/-- The channel side of an enable (R98). -/
def Channel.enable (ch : Channel) : Channel := { ch with disabled := none, misses := 0 }

end Sys2Proof.Machine
end

