-- ==== Sys2Proof/Machine/Channels.lean ====
section
/-! DEFINITION. Striker channels: pulses and their ends (R89 to R94), recovery (R92), and the state READ_CHANNEL reports (R87, R102). -/

set_option Elab.async false

namespace Sys2Proof.Machine

/-- The recovery time after a pulse driven for `wd` (R92). -/
def ChannelSettings.recovery (cs : ChannelSettings) (wd : Int) : Int := cs.recBase + trunc (wd * cs.recRatio) 16

/-- The width a pulse has driven when it ends: W at its end time, the time since its start when it is ended early (R92). -/
def Pulse.driven (p : Pulse) (now : Time) (cut : Bool) : Int := if cut then now - p.start else p.width

/-- The moment a pulse ends: its end time, or now when it is ended early (R90, R93). -/
def Pulse.endMoment (p : Pulse) (now : Time) (cut : Bool) : Time := if cut then now else p.ends

/-- The channel after its pulse: no pulse, and a recovery unless its time is 0 (R90, R92). -/
def Channel.endPulse (ch : Channel) (cs : ChannelSettings) (p : Pulse) (now : Time) (cut : Bool) : Channel :=
  let r := cs.recovery (p.driven now cut)
  { ch with pulse := none, recoveryEnd := if r = 0 then none else some (p.endMoment now cut + r) }

/-- The confirm record of a pulse (R91) with its window (R107). -/
def State.recordOf (s : State) (c : Chan) (p : Pulse) (cut : Bool) : ConfirmRecord :=
  let expected := p.start + p.flight
  { channel := c, input := (s.settings c).input, expected := expected,
    opens := expected - s.options.winEarly, closes := expected + s.options.winLate, isOpen := false,
    weak := p.weak, late := p.late, cut := cut, roll := p.roll, band := p.band }

/-- The pulse in progress on a channel ends and its record is handed over; `cut` when it is ended early (R90, R93, R94). -/
def State.finishPulse (s : State) (c : Chan) (cut : Bool) : State :=
  match (s.channel c).pulse with
  | none => s
  | some p => (s.setChannel c ((s.channel c).endPulse (s.settings c) p s.now cut)).placeRecord (s.recordOf c p cut)

/-- Every pulse in progress is ended early (R93, R94, R138). DESIGN CHOICE (log 66): the records are handed over by ascending channel number. -/
def State.cutPulses (s : State) : State := allChannels.foldl (fun s c => s.finishPulse c true) s

/-- The recovery of a channel is over when its time has come (R92). -/
def Channel.endRecovery (ch : Channel) (now : Time) : Channel :=
  match ch.recoveryEnd with
  | some r => if r ≤ now then { ch with recoveryEnd := none } else ch
  | none => ch

/-- A pulse is in progress on a channel whose end time has come (R90). -/
def State.pulseDue (s : State) (c : Chan) : Bool :=
  match (s.channel c).pulse with
  | some p => p.ends ≤ s.now
  | none => false

/-- A pulse end and a recovery end whose time has come are completed (R89). -/
def State.completeDue (s : State) (c : Chan) : State :=
  let s := if s.pulseDue c then s.finishPulse c false else s
  s.setChannel c ((s.channel c).endRecovery s.now)

/-- The pulse an armed strike starts (R84, R89). -/
def pulseOf (e : StrikeEntry) (written now : Time) (band : Band) : Pulse :=
  { start := now, width := e.width, flight := e.flight, written := written, weak := e.weak,
    late := written < now, roll := e.roll, band := band, ends := now + e.width }

/-- The channel takes a pulse and counts it (R89). -/
def Channel.startPulse (ch : Channel) (p : Pulse) : Channel :=
  { ch with pulse := some p, fired := step16 ch.fired, weak := if p.weak then step16 ch.weak else ch.weak }

/-! ## What READ_CHANNEL reports -/

/-- The entry is armed on channel `c`. -/
def StrikeEntry.armedOn (c : Chan) (e : StrikeEntry) : Bool :=
  match e.phase with
  | .armed chosen _ _ => chosen == c
  | .planned _ => false

/-- The armed strike of a channel. -/
def State.armedOn (s : State) (c : Chan) : Option StrikeEntry := s.planner.queue.find? (·.armedOn c)

/-- The state of a STRIKER channel (R87). -/
def State.strikerState (s : State) (c : Chan) : ChannelState :=
  let ch := s.channel c
  let recovering : Bool := match ch.recoveryEnd with
    | some r => s.now < r
    | none => false
  if ch.disabled.isSome then .disabled
  else if ch.pulse.isSome then .driving
  else if recovering then .recovering
  else if (s.armedOn c).isSome then .armed
  else .idle

/-- The state of a channel of any kind (R102). -/
def State.channelState (s : State) (c : Chan) : ChannelState :=
  match (s.settings c).kind with
  | .striker => s.strikerState c
  | .unused => .idle
  | .damper => match (s.damper c).state with
    | .lowered => .lowered
    | .raising => .raising
    | .raised => .raised
    | .lowering => .lowering

end Sys2Proof.Machine
end

