-- ==== Sys2Proof/Machine/Dampers.lean ====
section
/-! DEFINITION. Dampers and the rotor: targets, checks, claims (R121 to R126) and the duty update (R127 to R131). Slots are granted in Grants.lean. -/

set_option Elab.async false

namespace Sys2Proof.Machine

/-! ## Claims (R81) -/

/-- `a` stands before `b` in the claimant list. -/
def Claim.before (a b : Claim) : Bool := a.due < b.due || (a.due == b.due && a.channel < b.channel)

/-- A claim takes its place in the claimant list. -/
def insertClaim (a : Claim) : List Claim → List Claim
  | [] => [a]
  | x :: xs => if a.before x then a :: x :: xs else x :: insertClaim a xs

/-- A claim of a channel waits. -/
def State.claimWaits (s : State) (c : Chan) : Bool := s.planner.claims.any fun a => a.channel == c

/-- A claim joins the list. -/
def State.addClaim (s : State) (a : Claim) : State :=
  s.setPlanner { s.planner with claims := insertClaim a s.planner.claims }

/-- The claim of a channel leaves the list. -/
def State.removeClaim (s : State) (c : Chan) : State :=
  s.setPlanner { s.planner with claims := s.planner.claims.filter fun a => a.channel != c }

/-! ## Checks and movements -/

/-- A damper starts lowering: a lower check runs, or passes at once on a DEASSERTED level (R122, R124). -/
def Damper.startLowering (d : Damper) (now : Time) (asserted : Bool) : Damper :=
  if asserted then
    { d with state := .lowering, pullInEnd := none, check := some { raise := false, deadline := now + Config.checkTime } }
  else { d with state := .lowered, pullInEnd := none, check := none }

/-- A damper starts raising at its grant: a raise check runs, or passes at once on an ASSERTED level (R123, R124). -/
def Damper.startRaising (d : Damper) (now : Time) (asserted : Bool) : Damper :=
  { d with
    state := .raising
    pullInEnd := some (now + Config.pullIn)
    check := if asserted then none else some { raise := true, deadline := now + Config.checkTime } }

/-- A change of the sensor's level to `asserted`: the check that awaits it passes (R124). -/
def Damper.sensed (d : Damper) (asserted : Bool) : Damper :=
  match d.check with
  | some k =>
    if k.raise = asserted then { d with check := none, state := if k.raise then d.state else .lowered } else d
  | none => d

/-- The check's deadline has come: it has failed (R124). -/
def Damper.checkFails (d : Damper) (k : DamperCheck) : Damper :=
  { d with check := none, state := if k.raise then d.state else .lowered }

/-- The pull-in has ended (R123). -/
def Damper.endPullIn (d : Damper) : Damper := { d with state := .raised, pullInEnd := none }

/-- The cut drops a damper; its target is kept (R125). -/
def Damper.cut (d : Damper) : Damper := { d with state := .lowered, pullInEnd := none, check := none }

/-- The qualified level of a channel's sensor. -/
def State.sensorOf (s : State) (c : Chan) : Bool := (s.input (s.settings c).input).asserted

/-- The damper channels on an input take its new level (R124). -/
def State.sensedBy (s : State) (i : Chan) (asserted : Bool) : State :=
  { s with dampers := (s.dampersOn i).foldl (fun ds (c : Chan) => ds.set c (ds[c].sensed asserted)) s.dampers }

/-- A damper's target becomes a direction, and the channel acts on it (R122, R123). Slots are granted by the caller. -/
def State.setTarget (s : State) (c : Chan) (raise : Bool) : State :=
  let d := s.damper c
  if d.targetRaised = raise then s
  else
    let d := { d with targetRaised := raise }
    let s := s.setDamper c d
    match d.state with
    | .lowered | .lowering =>
      if raise then (if s.claimWaits c then s else s.addClaim { due := s.now, channel := c, kind := .damper })
      else s.removeClaim c
    | .raising | .raised => if raise then s else s.setDamper c (d.startLowering s.now (s.sensorOf c))

/-- The channels of kind DAMPER. -/
def State.damperChannels (s : State) : List Chan := allChannels.filter fun c => (s.settings c).kind == .damper

/-- Every damper's target becomes LOWERED (R126). -/
def State.lowerAll (s : State) : State := s.damperChannels.foldl (fun s c => s.setTarget c false) s

/-- The cut reaches one damper channel (R125). -/
def State.cutDamper (s : State) (c : Chan) : State :=
  let d := s.damper c
  let s := s.setDamper c d.cut
  if d.targetRaised ∧ !s.claimWaits c then s.addClaim { due := s.now, channel := c, kind := .damper } else s

/-- The cut reaches every damper channel (R125). -/
def State.cutDampers (s : State) : State := s.damperChannels.foldl State.cutDamper s

/-! ## DAMP events (R121) -/

/-- The apply moment of an event at `p` for channel `c`. -/
def State.applyMoment (s : State) (p : Pos) (c : Chan) : Time := s.clock.timeOf p - (s.settings c).damperLead

/-- DAMP events at `p` are projected and applied in the present state. -/
def State.dampAllowed (s : State) (p : Pos) : Bool :=
  match s.station.state with
  | .countin | .playing => true
  | .rejoining => s.clock.isSet
  | .holding => match s.clock.hold with
    | some h => p ≤ h.pos
    | none => false
  | _ => false

/-- The direction of a DAMP event due now for channel `c`, with its apply moment. -/
def State.dampDue (s : State) (c : Chan) (e : TimelineEvent) : Option (Time × Bool) :=
  match e.kind with
  | .damp raise cs =>
    if cs.getLsbD c.val ∧ s.dampAllowed e.pos ∧ s.applyMoment e.pos c ≤ s.now then some (s.applyMoment e.pos c, raise)
    else none
  | _ => none

/-- The first of a channel's due DAMP events: earliest apply moment, then list order; with its index. -/
def State.firstDamp (s : State) (c : Chan) : Option (Nat × Time × Bool) :=
  (s.reader.timeline.zipIdx.filterMap fun p => (s.dampDue c p.1).map fun m => (p.2, m)).foldl
    (fun best x => match best with
      | none => some x
      | some b => if x.2.1 < b.2.1 then some x else some b) none

/-- The event has applied to channel `c`. -/
def TimelineEvent.appliedTo (e : TimelineEvent) (c : Chan) : TimelineEvent :=
  match e.kind with
  | .damp raise cs => { e with kind := .damp raise (cs &&& ~~~(BitVec.twoPow 24 c.val)) }
  | _ => e

/-- A DAMP event that has still a channel to apply to, or an event of another kind. -/
def TimelineEvent.stays (e : TimelineEvent) : Bool :=
  match e.kind with
  | .damp _ cs => cs != 0
  | _ => true

/-- The event at an index has applied to a channel; it leaves the list after its last channel. -/
def State.consumeDamp (s : State) (k : Nat) (c : Chan) : State :=
  s.setReader { s.reader with timeline := (s.reader.timeline.modify k (·.appliedTo c)).filter TimelineEvent.stays }

/-- The first due DAMP event of a channel applies, if there is one (R121, R122). A raise applies while the station finishes as well; DESIGN CHOICE (log 68): at the moment of END the order of END_REACHED and DAMP_APPLY decides whether it comes before or after the END report. -/
def State.applyDamp (s : State) (c : Chan) : State :=
  match s.firstDamp c with
  | none => s
  | some (k, _, raise) => (s.consumeDamp k c).setTarget c raise

/-- The DAMPER channels of a set. -/
def State.damperSet (s : State) (cs : BitVec 24) : BitVec 24 :=
  s.damperChannels.foldl (fun acc c => if cs.getLsbD c.val then acc ||| BitVec.twoPow 24 c.val else acc) 0

/-- A DAMP event behind the clock applies at once to every channel of its set (R121). DESIGN CHOICE (log 69): all its channels take their targets before any slot is granted. -/
def State.dampNow (s : State) (raise : Bool) (cs : BitVec 24) : State :=
  (s.damperChannels.filter fun c => cs.getLsbD c.val).foldl (fun s c => s.setTarget c raise) s

/-! ## The rotor -/

/-- The target of a ROTOR event at or below `p` (R127). -/
def TimelineEvent.rotorTarget (p : Pos) (e : TimelineEvent) : Option Nat :=
  match e.kind with
  | .rotor n => if e.pos ≤ p then some (min n 32) else none
  | _ => none

/-- The last target taken, or the pending one where none is taken. -/
def lastTarget (pending : Option Nat) (ns : List Nat) : Option Nat := ns.foldl (fun _ n => some n) pending

/-- ROTOR events up to Pb are taken (R127). -/
def State.takeRotorEvents (s : State) : State :=
  { s with
    rotor := { s.rotor with
      pendingTarget := lastTarget s.rotor.pendingTarget (s.reader.timeline.filterMap (·.rotorTarget s.clock.pb)) }
    reader := { s.reader with timeline := s.reader.timeline.filter fun e => (e.rotorTarget s.clock.pb).isNone } }

/-- A pending target becomes the target (R129 step 1). -/
def Rotor.takePending (r : Rotor) : Rotor :=
  match r.pendingTarget with
  | some n => { r with target := n, pendingTarget := none }
  | none => r

/-- The duty after an update on a count (R129 step 4). -/
def newDuty (duty target count gain : Int) : Int := clamp 0 255 (duty + trunc ((4 * target - count) * gain) 4)

/-- The zero-count beats after the stall test on a count (R130). -/
def Rotor.zeroBeatsAfter (r : Rotor) (count : Nat) : Nat := if count = 0 ∧ 32 ≤ r.duty then r.zeroBeats + 1 else 0

/-- The rotor stalls on this count (R130). -/
def Rotor.stalls (r : Rotor) (count : Nat) (band : Band) : Bool :=
  r.target != 0 && band != .cut && 2 ≤ r.zeroBeatsAfter count

/-- Steps 2 to 4 of R129 with the stall test of R130. -/
def Rotor.update (r : Rotor) (count : Nat) (band : Band) (gain : Int) : Rotor :=
  if r.target = 0 then { r with duty := 0, zeroBeats := 0 }
  else if band = .cut then r
  else if r.stalls count band then { r with duty := 0, target := 0, zeroBeats := 0 }
  else { r with duty := (newDuty r.duty r.target count gain).toNat, zeroBeats := r.zeroBeatsAfter count }

/-- The rotor's reaction to a boundary, on the count of the beat just ended (R129). -/
def State.rotorBoundary (s : State) (count : Nat) : State :=
  let s := s.takeRotorEvents
  let r := s.rotor.takePending
  let stalls := r.stalls count s.rail.band
  let s := s.setRotor { r.update count s.rail.band s.options.rotorGain with window := 0 }
  if stalls then s.raise srcRotorStall s.clock.bar else s

/-- The rotor comes to rest (R131). -/
def State.stopRotor (s : State) : State := s.setRotor .atReset

/-- The rotor's window counts an edge (R128). -/
def Rotor.countEdge (r : Rotor) : Rotor := { r with window := stepTo 255 r.window }

end Sys2Proof.Machine
end

