-- ==== Sys2Proof/Machine/Planner.lean ====
section
/-! DEFINITION. The strike planner: width and flight (R66 to R68), projection (R70, R71), arming (R73 to R77), the strike queue (R63 to R65) and the hold (R72). -/

set_option Elab.async false

namespace Sys2Proof.Machine

/-! ## Width and flight -/

/-- The compensation divisor r′ (R66). -/
def divisor (accepted cut : Nat) : Int := max (max accepted cut) 1

/-- W_c (R67). -/
def compensatedWidth (cs : ChannelSettings) (v : Nat) (nom r : Int) : Int :=
  rhu ((cs.baseW + trunc (v * cs.slopeW) 16) * nom) r

/-- F_raw (R68). -/
def rawFlight (cs : ChannelSettings) (v : Nat) : Int := cs.flightMin + trunc ((127 - v) * cs.flightSpan + 63) 126

/-- F (R68). -/
def flightOf (cs : ChannelSettings) (v : Nat) (nom r trim : Int) : Int :=
  clamp 500 60000 (rhu (rawFlight cs v * nom) r + trim)

/-- Width, flight and weak flag of one computation (R67, R68). -/
structure Figures where
  width : Time
  flight : Time
  weak : Bool
  deriving DecidableEq, Repr

/-- The figures of velocity `v` on channel settings (R67, R68). -/
def figuresOf (cs : ChannelSettings) (v : Nat) (nom r trim : Int) : Figures :=
  { width := clamp cs.minW cs.maxW (compensatedWidth cs v nom r)
    flight := flightOf cs v nom r trim
    weak := cs.maxW < compensatedWidth cs v nom r }

/-- The figures of velocity `v` on channel `c` now (R66 to R69). -/
def State.figures (s : State) (c : Chan) (v : Nat) : Figures :=
  figuresOf (s.settings c) v s.options.nom (divisor s.rail.accepted s.options.cut) (s.channel c).trim

/-- An entry with figures. -/
def StrikeEntry.withFigures (e : StrikeEntry) (f : Figures) : StrikeEntry :=
  { e with width := f.width, flight := f.flight, weak := f.weak }

/-! ## The queue -/

/-- Same position and voice (R64). -/
def StrikeEntry.sameKey (a b : StrikeEntry) : Bool := a.pos == b.pos && a.voice == b.voice

/-- Queue order: position, then voice (R63). -/
def StrikeEntry.before (a b : StrikeEntry) : Bool := a.pos < b.pos || (a.pos == b.pos && a.voice < b.voice)

/-- A new entry takes its place in queue order. -/
def insertStrike (e : StrikeEntry) : List StrikeEntry → List StrikeEntry
  | [] => [e]
  | x :: xs => if e.before x then e :: x :: xs else x :: insertStrike e xs

/-- The queue's entry with the key of `e`. -/
def State.entryLike (s : State) (e : StrikeEntry) : Option StrikeEntry := s.planner.queue.find? (·.sameKey e)

/-- The queue's entry with the key of `e` becomes `e`. -/
def State.setEntry (s : State) (e : StrikeEntry) : State :=
  s.setPlanner { s.planner with queue := s.planner.queue.map fun x => if x.sameKey e then e else x }

/-- The entry with the key of `e` leaves the queue. -/
def State.removeEntry (s : State) (e : StrikeEntry) : State :=
  s.setPlanner { s.planner with queue := s.planner.queue.filter fun x => !x.sameKey e }

/-- The channels an entry may take: preferred, then other (R74). -/
def StrikeEntry.candidates (e : StrikeEntry) : List Chan := e.preferred :: e.other.toList

/-- The entry waits PLANNED with its arming deferred flag set. -/
def StrikeEntry.deferred (e : StrikeEntry) : Bool :=
  match e.phase with
  | .planned d => d
  | .armed _ _ _ => false

/-- The entry is ARMED. -/
def StrikeEntry.isArmed (e : StrikeEntry) : Bool :=
  match e.phase with
  | .armed _ _ _ => true
  | .planned _ => false

/-! ## Projection (R70, R71) -/

/-- An entry at `p` is projected in the present state (R71). -/
def State.projects (s : State) (p : Pos) : Bool :=
  match s.station.state with
  | .countin | .playing => true
  | .rejoining => s.clock.isSet
  | .holding => match s.clock.hold with
    | some h => p ≤ h.pos
    | none => true
  | _ => false

/-- The present state allows arming (R71). -/
def State.allowsArming (s : State) : Bool :=
  match s.station.state with
  | .countin | .playing | .holding => true
  | _ => false

/-- A PLANNED entry is projected (R70); an entry beyond the hold is not (R72). -/
def State.projectedEntry (s : State) (e : StrikeEntry) : StrikeEntry :=
  if e.isArmed then e
  else if s.projects e.pos then
    let f := s.figures e.preferred e.velocity
    { e.withFigures f with projected := some (s.clock.timeOf e.pos - f.flight) }
  else { e with projected := none }

/-- Every PLANNED entry is projected (R70). -/
def State.projectAll (s : State) : State :=
  s.setPlanner { s.planner with queue := s.planner.queue.map s.projectedEntry }

/-! ## Arming -/

/-- Where a candidate's pulse and recovery will end: its free time (R74). -/
def State.freeTime (s : State) (c : Chan) : Time :=
  let busy : Time := match (s.channel c).pulse with
    | some p => p.ends + (s.settings c).recovery p.width
    | none => laterOf (s.channel c).recoveryEnd s.now
  match s.armedOn c with
  | some e => match e.phase with
    | .armed _ _ effective => max busy (effective + e.width + (s.settings c).recovery e.width)
    | .planned _ => busy
  | none => busy

/-- A candidate is usable (R74). -/
def State.usable (s : State) (c : Chan) : Bool := (s.channel c).disabled.isNone

/-- The candidate fire time f_c (R74). -/
def State.fireTimeOn (s : State) (e : StrikeEntry) (c : Chan) : Time :=
  s.clock.timeOf e.pos - (s.figures c e.velocity).flight

/-- A candidate passes (R74). -/
def State.passes (s : State) (e : StrikeEntry) (c : Chan) : Bool :=
  s.usable c && (s.armedOn c).isNone && s.freeTime c ≤ s.fireTimeOn e c

/-- What the choice of a channel comes to (R75). -/
inductive Choice where
  | take (c : Chan) (written effective : Time)
  | defer
  | noChannel
  deriving DecidableEq, Repr

/-- The usable candidate with the earliest free time, the first on a tie (R75 step 4). -/
def State.soonest (s : State) : List Chan → Option Chan
  | [] => none
  | c :: cs =>
    if s.usable c then match s.soonest cs with
      | some d => if s.freeTime d < s.freeTime c then some d else some c
      | none => some c
    else s.soonest cs

/-- The planner chooses a channel for an entry (R75). -/
def State.chooseChannel (s : State) (e : StrikeEntry) : Choice :=
  match e.candidates.find? (s.passes e) with
  | some c => .take c (s.fireTimeOn e c) (max (s.fireTimeOn e c) s.now)
  | none => match s.soonest e.candidates with
    | none => .noChannel
    | some c =>
      if (s.armedOn c).isSome then .defer
      else .take c (s.fireTimeOn e c) (max (max (s.fireTimeOn e c) s.now) (s.freeTime c))

/-- A channel counts a drop (R77). -/
def Channel.countDrop (ch : Channel) : Channel := { ch with dropped := step16 ch.dropped }

/-- An entry is dropped, counted against channel `c` (R77). -/
def State.dropEntry (s : State) (e : StrikeEntry) (c : Chan) (x : Source) (detail : Nat) : State :=
  ((s.removeEntry e).setChannel c (s.channel c).countDrop).raise x detail

/-- The entry as armed on channel `c` (R76). -/
def State.armedEntry (s : State) (e : StrikeEntry) (c : Chan) (written effective : Time) : StrikeEntry :=
  { e.withFigures (s.figures c e.velocity) with phase := .armed c written effective }

/-- The entry as deferred; it keeps the preferred channel's figures (R69, R75). -/
def State.deferredEntry (s : State) (e : StrikeEntry) : StrikeEntry :=
  { e.withFigures (s.figures e.preferred e.velocity) with phase := .planned true }

/-- An entry of the queue is armed, deferred or dropped (R73 to R77). -/
def State.armEntry (s : State) (e : StrikeEntry) : State :=
  match s.chooseChannel e with
  | .noChannel => s.dropEntry e e.preferred srcDroppedChannel e.voice
  | .defer => s.setEntry (s.deferredEntry e)
  | .take c written effective =>
    if s.options.lateTol < effective - written then s.dropEntry e c srcDroppedLate c.val
    else
      let a := s.armedEntry e c written effective
      if a.weak then (s.setEntry a).raise srcWeak c.val else s.setEntry a

/-- The entry is due for arming (R73). -/
def State.armDue (s : State) (e : StrikeEntry) : Bool :=
  s.allowsArming && !e.isArmed && !e.deferred && (match e.projected with
    | some f => f - Config.armLead ≤ s.now
    | none => false)

/-- The queue's entry of the key of `e` is armed if it is due. -/
def State.armIfDue (s : State) (e : StrikeEntry) : State :=
  match s.entryLike e with
  | some x => if s.armDue x then s.armEntry x else s
  | none => s

/-- Every due entry is armed, in queue order (R73). -/
def State.armAllDue (s : State) : State := s.planner.queue.foldl State.armIfDue s

/-- The first due entry in queue order is armed (R73). -/
def State.armFirstDue (s : State) : State :=
  match s.planner.queue.find? s.armDue with
  | some e => s.armEntry e
  | none => s

/-! ## Deferred entries (R75) -/

/-- The entry is deferred with a candidate among `cs`. -/
def StrikeEntry.deferredOn (cs : List Chan) (e : StrikeEntry) : Bool :=
  e.deferred && e.candidates.any fun c => cs.contains c

/-- The arming deferred flag is cleared. -/
def StrikeEntry.clearDeferred (e : StrikeEntry) : StrikeEntry :=
  if e.deferred then { e with phase := .planned false } else e

/-- A formerly deferred entry is armed at once where the state allows arming and it is projected. -/
def State.armReleased (s : State) (e : StrikeEntry) : State :=
  match s.entryLike e with
  | some x => if s.allowsArming ∧ !x.isArmed ∧ x.projected.isSome then s.armEntry x else s
  | none => s

/-- The entries of a queue up to the last one that `p` picks; none where it picks none. -/
def upToLast (p : StrikeEntry → Bool) : List StrikeEntry → List StrikeEntry
  | [] => []
  | x :: xs => if p x || xs.any p then x :: upToLast p xs else []

/-- The entry is deferred with a candidate among `cs` and projected, so that it is due at once when such a channel is given up or enabled (R75). -/
def StrikeEntry.releasedOn (cs : List Chan) (e : StrikeEntry) : Bool := e.deferredOn cs && e.projected.isSome

/-- Armed strikes have left the channels `cs`, or those channels were enabled: the arming deferred flag of the entries deferred on them is cleared, and they arm, each in its turn in queue order, behind the earlier entries that are due at this moment (R73, R75). DESIGN CHOICE (log 80): an entry whose arm moment is this one and which stands behind them arms by its own ARM_MOMENT. -/
def State.releaseDeferred (s : State) (cs : List Chan) : State :=
  (upToLast (·.releasedOn cs) s.planner.queue).foldl (fun s e => if e.releasedOn cs then s.armReleased e else s.armIfDue e)
    (s.setPlanner { s.planner with
      queue := s.planner.queue.map fun e => if e.deferredOn cs then e.clearDeferred else e })

/-! ## Insertion, flush and hold -/

/-- What the reader hands over (R63). -/
def newStrike (pos : Pos) (voice velocity : Nat) (preferred : Chan) (other : Option Chan) (roll : Bool) : StrikeEntry :=
  { pos := pos, voice := voice, velocity := velocity, preferred := preferred, other := other, roll := roll,
    phase := .planned false, projected := none, width := 0, flight := 0, weak := false }

/-- An entry that has just been projected arms if it is due, behind the earlier entries of the queue that are due at this moment (R70, R73; log 80). -/
def State.armInOrder (s : State) (e : StrikeEntry) : State :=
  if s.armDue e then (upToLast (·.sameKey e) s.planner.queue).foldl State.armIfDue s else s

/-- The reader inserts an entry: planned afresh, merged or discarded; one that is due at once arms (R64, R70). -/
def State.insertEntry (s : State) (e : StrikeEntry) : State :=
  match s.entryLike e with
  | none =>
    let e := s.projectedEntry e
    (s.setPlanner { s.planner with queue := insertStrike e s.planner.queue }).armInOrder e
  | some x =>
    if x.isArmed ∨ e.velocity ≤ x.velocity then s
    else
      let x := s.projectedEntry { x with velocity := e.velocity }
      (s.setEntry x).armInOrder x

/-- The queue has room (R63). -/
def State.queueRoom (s : State) : Bool := s.planner.queue.length < Config.strikeQueueDepth

/-- The claim is a damper's. -/
def Claim.isDamper (a : Claim) : Bool :=
  match a.kind with
  | .damper => true
  | .strike => false

/-- The strike queue is flushed (R65). -/
def State.flushStrikes (s : State) : State :=
  s.setPlanner { queue := [], claims := s.planner.claims.filter Claim.isDamper }

/-- An entry beyond the hold position becomes unprojected, and is withdrawn if it is ARMED (R72). DESIGN CHOICE (log 50): an entry withdrawn from its other channel keeps that channel's figures until its next projection. -/
def StrikeEntry.unproject (hold : Pos) (e : StrikeEntry) : StrikeEntry :=
  if hold < e.pos then { e with projected := none, phase := .planned false } else e

/-- The channel of an armed entry beyond the hold position. -/
def StrikeEntry.withdrawnFrom (hold : Pos) (e : StrikeEntry) : Option Chan :=
  match e.phase with
  | .armed c _ _ => if hold < e.pos then some c else none
  | .planned _ => none

/-- Entry to HOLDING reaches the queue (R72), and entries deferred on the channels given up arm (R75). -/
def State.holdQueue (s : State) (hold : Pos) : State :=
  let freed := s.planner.queue.filterMap (·.withdrawnFrom hold)
  let s := s.setPlanner
    { queue := s.planner.queue.map (·.unproject hold)
      claims := s.planner.claims.filter fun a => a.isDamper || !freed.contains a.channel }
  s.releaseDeferred freed

end Sys2Proof.Machine
end

