-- ==== Sys2Proof/Machine/Grants.lean ====
section
/-! DEFINITION. The drive-slot arbiter: slots in use (R79), claims and grants (R80 to R84), and the re-choice of a strike whose channel is DISABLED (R78). -/

set_option Elab.async false

namespace Sys2Proof.Machine

/-- A damper in RAISING holds a slot. -/
def Damper.holdsSlot (d : Damper) : Bool := d.state == .raising

/-- The slots in use (R79). -/
def State.slotsInUse (s : State) : Nat :=
  (allChannels.filter fun c => (s.channel c).pulse.isSome).length
    + (allChannels.filter fun c => (s.damper c).holdsSlot).length

/-- A slot is free and may be granted: never in CUT (R83). -/
def State.slotGrantable (s : State) : Bool := s.rail.band != .cut && s.slotsInUse < s.options.driveSlots

/-- The strike of an armed entry claims a slot (R80, R81). -/
def State.claimStrike (s : State) (c : Chan) (written : Time) : State :=
  if s.claimWaits c then s else s.addClaim { due := written, channel := c, kind := .strike }

/-- An armed strike is dropped by the arbiter, and its channel is free for a deferred entry (R77, R82, R83). -/
def State.dropArmed (s : State) (e : StrikeEntry) (c : Chan) (x : Source) : State :=
  ((s.removeClaim c).dropEntry e c x c.val).releaseDeferred [c]

/-- A re-chosen strike that is due at once claims a slot, or is dropped in CUT (R78, R80, R83). -/
def State.claimIfDue (s : State) (e : StrikeEntry) : State :=
  match s.entryLike e with
  | some x => match x.phase with
    | .armed c written effective =>
      if s.now < effective then s
      else if s.rail.band = .cut then s.dropArmed x c srcDroppedCut
      else s.claimStrike c written
    | .planned _ => s
  | none => s

/-- The re-choice: the strike is taken off the DISABLED channel `c` and armed again (R78; log 26). -/
def State.rechoose (s : State) (e : StrikeEntry) (c : Chan) : State :=
  let e := { e with phase := .planned false }
  ((((s.removeClaim c).setEntry e).armEntry e).claimIfDue e).releaseDeferred [c]

/-- The pulse of a granted strike starts (R84, R89), and entries deferred on the channel arm (R75). DESIGN CHOICE (log 67): it starts also where the pulse end completed with the grant has just disabled the channel. -/
def State.startStrike (s : State) (e : StrikeEntry) (c : Chan) (written : Time) : State :=
  let s := (s.removeEntry e).completeDue c
  let p := pulseOf e written s.now s.rail.band
  (s.setChannel c ((s.channel c).startPulse p)).releaseDeferred [c]

/-- The pull-in of a granted damper starts (R123). -/
def State.startDamper (s : State) (c : Chan) : State := s.setDamper c ((s.damper c).startRaising s.now (s.sensorOf c))

/-- The first claim, taken off the list, is dropped for its lateness, re-chosen or granted (R81, R82). -/
def State.grantClaim (s : State) (a : Claim) : State :=
  match a.kind with
  | .damper => s.startDamper a.channel
  | .strike => match s.armedOn a.channel with
    | none => s
    | some e => match e.phase with
      | .planned _ => s
      | .armed c written _ =>
        if s.options.lateTol < s.now - written then s.dropArmed e c srcDroppedLate
        else if (s.channel c).disabled.isSome then s.rechoose e c
        else s.startStrike e c written

/-! ## Late claims (R82) -/

/-- A waiting strike claim is late beyond the tolerance (R82). -/
def State.claimLate (s : State) (a : Claim) : Bool := !a.isDamper && s.options.lateTol < s.now - a.due

/-- The first late strike claim in list order is dropped (R82). DESIGN CHOICE (log 72): of several that pass the tolerance at one moment the first in list order drops first, which is the lower channel of equal written fire times. -/
def State.dropFirstLate (s : State) : State :=
  match s.planner.claims.find? s.claimLate with
  | none => s
  | some a => match s.armedOn a.channel with
    | some e => s.dropArmed e a.channel srcDroppedLate
    | none => s.removeClaim a.channel

/-! ## Claims that fall due at the moment a slot falls free (R80; log 64) -/

/-- The entry is armed, its fire time has come, and its channel has no claim yet. -/
def State.joinsNow (s : State) (e : StrikeEntry) : Bool :=
  match e.phase with
  | .armed c _ effective => effective ≤ s.now && !s.claimWaits c
  | .planned _ => false

/-- An armed strike whose fire time has come claims a slot; on a DISABLED channel it is re-chosen first, and claims where it is due at once (R78, R80). -/
def State.joinStrike (s : State) (e : StrikeEntry) : State :=
  match e.phase with
  | .armed c written _ => if (s.channel c).disabled.isSome then s.rechoose e c else s.claimStrike c written
  | .planned _ => s

/-- Late claims leave the list and the strikes whose fire time has come join it, those among them that a drop or a re-choice makes due. -/
def State.joinLoop : Nat → State → State
  | 0, s => s
  | n + 1, s =>
    if s.planner.claims.any s.claimLate then State.joinLoop n s.dropFirstLate
    else match s.planner.queue.find? s.joinsNow with
      | some e => State.joinLoop n (s.joinStrike e)
      | none => s

/-- More rounds than any run of drops, joins, re-choices and grants takes: a drop or a grant takes one of at most 64 entries or a damper's claim, a join gives a channel its one claim, and a re-choice takes a strike off a DISABLED channel. -/
def claimRounds : Nat := 256

/-- The claimant list as it stands at this moment, before a slot is granted: no claim in it is late, and every strike whose fire time has come is in it (R80, R82; log 64). DESIGN CHOICE (log 84): an entry still PLANNED, whose arm moment is this very one, is not armed for it; whether its claim is there is decided by the order of its ARM_MOMENT and the command that frees the slot. -/
def State.joinStrikes (s : State) : State := State.joinLoop claimRounds s

/-- A raise is due for channel `c`. -/
def State.raiseDue (s : State) (c : Chan) : Bool :=
  s.reader.timeline.any fun e => match s.dampDue c e with
    | some (_, raise) => raise
    | none => false

/-- The due DAMP events of a channel apply up to the raise that makes its claim (R121, R123). -/
def State.joinDamper (s : State) (c : Chan) : State :=
  (List.range Config.timelineDepth).foldl (fun s _ => if s.raiseDue c && !s.claimWaits c then s.applyDamp c else s) s

/-- The dampers whose raise is due join the list. -/
def State.joinDampers (s : State) : State := s.damperChannels.foldl State.joinDamper s

/-! ## The grants (R81) -/

/-- Claims are granted in list order until the slots or the claims run out; `join` brings the list up to this moment before each grant (R80, R81). -/
def State.grantLoop (join : State → State) : Nat → State → State
  | 0, s => s
  | n + 1, s =>
    if s.slotGrantable then
      let s := join s
      match s.planner.claims with
      | [] => s
      | a :: rest => State.grantLoop join n ((s.setPlanner { s.planner with claims := rest }).grantClaim a)
    else s

/-- The waiting claims and those of this moment are granted as far as slots allow: a strike that a grant, a drop or a re-choice arms to fire now joins the list before the next grant (R80, R81; log 64). -/
def State.grantsFreed (s : State) : State := State.grantLoop State.joinStrikes claimRounds s

/-- A slot falls free: claims of this moment join the list first, then the grants follow in list order (R80, R81). -/
def State.slotFreed (s : State) : State := if s.rail.band = .cut then s else s.joinDampers.grantsFreed

/-- The grant of claim `a` starts a pulse on a channel whose last pulse ends at this moment and is completed with the grant: the slot of that pulse falls free (R79, R89). -/
def State.grantEndsPulse (s : State) (a : Claim) : Bool :=
  match a.kind, s.armedOn a.channel with
  | .strike, some e => match e.phase with
    | .armed c written _ => s.pulseDue c && s.now - written ≤ s.options.lateTol && (s.channel c).disabled.isNone
    | .planned _ => false
  | _, _ => false

/-- The waiting claims are granted as far as slots stand free; where a grant ends the channel's last pulse, a slot has fallen free at this moment, and `freed` brings the other claims of the moment in before it is granted (R80, R81). -/
def State.grantStanding (freed : State → State) : Nat → State → State
  | 0, s => s
  | n + 1, s =>
    if s.slotGrantable then match s.planner.claims with
      | [] => s
      | a :: rest =>
        let t := (s.setPlanner { s.planner with claims := rest }).grantClaim a
        if s.grantEndsPulse a then freed t else State.grantStanding freed n t
    else s

/-- The waiting claims are granted as far as slots allow, where no slot has fallen free before. -/
def State.grants (s : State) : State := State.grantStanding State.slotFreed claimRounds s

/-- Slots follow a movement of dampers that held `before` slots together with the pulses: a slot given up is granted as it falls free, and new claims are granted where slots are free (R79, R123). -/
def State.afterDampers (before : Nat) (s : State) : State := if s.slotsInUse < before then s.slotFreed else s.grants

/-- The fire time of the strike armed on `c` is reached (R80). DESIGN CHOICE (log 83): of two claims made at one moment while only one slot stands free, the one whose command comes first is granted, whatever their written fire times. -/
def State.fireTime (s : State) (c : Chan) : State :=
  match s.armedOn c with
  | none => s
  | some e => match e.phase with
    | .planned _ => s
    | .armed _ written effective =>
      if s.now < effective ∨ s.claimWaits c then s
      else if (s.channel c).disabled.isSome then (s.rechoose e c).grants
      else if s.rail.band = .cut then s.dropArmed e c srcDroppedCut
      else (s.claimStrike c written).grants

/-- The first due DAMP event of one channel applies and slots follow (R121, R123). DESIGN CHOICE (log 83): a raise whose command comes before a strike's of the same moment takes the one slot that stands free. -/
def State.dampChannel (s : State) (c : Chan) : State := State.afterDampers s.slotsInUse (s.applyDamp c)

/-- All due DAMP events of one channel apply in order of time, and slots follow each of them (R121, R123). -/
def State.dampChannelAll (s : State) (c : Chan) : State :=
  (List.range Config.timelineDepth).foldl (fun s _ => s.dampChannel c) s

/-- Every due DAMP event applies, and slots follow each of them (R121, R123). DESIGN CHOICE (log 69): the channels reached at one moment are taken by ascending number. -/
def State.dampAll (s : State) : State := s.damperChannels.foldl State.dampChannelAll s

/-- A DAMP event behind the clock applies at once and slots follow (R121). -/
def State.dampPassed (s : State) (raise : Bool) (cs : BitVec 24) : State :=
  State.afterDampers s.slotsInUse (s.dampNow raise cs)

/-- The first due DAMP event of one channel applies where its apply moment stands before that of an event now placed at `p`, or is the same (R121). -/
def State.dampBefore (s : State) (p : Pos) (c : Chan) : State :=
  match s.firstDamp c with
  | some (_, m, _) => if m ≤ s.applyMoment p c then s.dampChannel c else s
  | none => s

/-- The due DAMP events of one channel up to an event now placed at `p` (R121). -/
def State.dampBeforeAll (s : State) (p : Pos) (c : Chan) : State :=
  (List.range Config.timelineDepth).foldl (fun s _ => s.dampBefore p c) s

/-- A DAMP event is placed at `p`, behind the clock: for every channel of its set the earlier-placed events that are due up to its apply moment apply first, so that the later-placed sets the final target, and then it applies itself (R121). -/
def State.dampPlaced (s : State) (p : Pos) (raise : Bool) (cs : BitVec 24) : State :=
  ((s.damperChannels.filter fun c => cs.getLsbD c.val).foldl (fun s c => s.dampBeforeAll p c) s).dampPassed raise cs

/-- Every damper target becomes LOWERED, and a slot given up goes to the strikes that claim one (R126, R79, R80). -/
def State.lowerDampers (s : State) : State :=
  let t := s.lowerAll
  if t.slotsInUse < s.slotsInUse ∧ t.rail.band ≠ .cut then t.grantsFreed
  else State.grantStanding State.grantsFreed claimRounds t

end Sys2Proof.Machine
end

