-- ==== Sys2Proof/Machine/StationOps.lean ====
section
/-! DEFINITION. The transitions of the station that several commands share: the clean-up of R7, the END report (R11), entering and leaving the playing states (R6, R35, R36, R40, R42), the clash (R10), the part reset (R1), and what follows every command. -/

set_option Elab.async false

namespace Sys2Proof.Machine

/-! ## The reader between pieces (R46) -/

/-- The reader drops its cursor, meter, bar map and scan, and empties the timeline list and the roll table (R46). -/
def Reader.clear (r : Reader) (st : ReaderState) : Reader :=
  { r with state := st, cursor := none, meter := none, barMap := [], timeline := [], rolls := Vector.replicate 4 none,
           scan := none }

/-- The reader goes to IDLE and the mute window is cleared (R7, R10, R55). -/
def Reader.quit (r : Reader) : Reader := { r.clear .idle with mute := none }

/-- A new scan starts from the first record of the active part (R58). -/
def State.newScan (s : State) (target : ScanTarget) : Scan :=
  { target := target, cursor := s.firstCursor, groupStart := s.firstCursor,
    meter := { barStart := 0, bpb := s.options.defaultBpb, bar := 1, change := none }, lineUntested := true,
    tempo := none, lastHold := none, dampers := Vector.replicate 24 none, rotor := none, held := [] }

/-- The reader starts scanning towards a target (R46). -/
def State.startScan (s : State) (target : ScanTarget) : State :=
  s.setReader { s.reader.clear .scanning with scan := some (s.newScan target), busyUntil := s.now }

/-! ## Back to READY -/

/-- Clock items that end with the piece: start, entry and hold (2.1, R7; log 37). -/
def Clock.leavePiece (c : Clock) : Clock := { c with start := none, entryThreshold := none, entryBar := none, hold := none }

/-- The station controller's items on entry to READY from a playing state (R7, R11). -/
def Station.toReady (st : Station) : Station :=
  { st with state := .ready, activePiece := none, returnState := none, finishing := false, companyDeadline := none }

/-- The clean-up of R7: the station enters READY. -/
def State.cleanUp (s : State) : State :=
  let s := (s.flushStrikes.setReader s.reader.quit).abandonAll
  let s := s.lowerDampers.stopRotor
  let s := s.setClock { s.clock.leavePiece with remembered := none }
  (s.setStation s.station.toReady).withdraw TxFrame.isMark

/-- Finishing is done: the station enters READY, the rotor at rest (R11, R131). -/
def State.finishDone (s : State) : State :=
  let s := (s.setReader (s.reader.clear .idle)).stopRotor
  ((s.setClock s.clock.leavePiece).setStation s.station.toReady).withdraw TxFrame.isMark

/-- END is reported to the station controller: in PLAYING the mute window, the damper targets and the rotor are dealt with and the station finishes; elsewhere the piece ends at once, its strikes flushed before a lowered damper gives up its slot (R11, R45, R55, R126, R131). -/
def State.endReport (s : State) : State :=
  match s.station.state with
  | .playing =>
    ((s.setReader { s.reader with mute := none }).lowerDampers.stopRotor).setStation { s.station with finishing := true }
  | _ => s.cleanUp

/-! ## LISTENING -/

/-- Entry to LISTENING from OFFLINE or HALTED (R3, R10, R12, R163). -/
def State.enterListening (s : State) : State :=
  (s.setStation
    { s.station with
      state := .listening, joinDeadline := some (s.now + s.options.presenceTimeout), keepalive := none }).withdraw
    fun f => f.isAnnounce || f.isSpontaneous

/-! ## Rejoining -/

/-- The rejoin reference is established (R42): the clock runs, offsets are consumed, the scan starts, the rotor's window restarts. -/
def State.establish (s : State) : State :=
  let s := (s.setClock s.referenceClock).consumeOffsets
  (s.startScan .entry).setRotor { s.rotor with window := 0 }

/-- The test for the reference (R41). -/
def State.rejoinTest (s : State) : State := if s.referenceReady then s.establish else s

/-- The clock's items on entering REJOINING with the position unset (R21). -/
def Clock.unset (c : Clock) : Clock := { c.leavePiece with isSet := false, selfOutliers := 0 }

/-- Entry to REJOINING with the position unset, from READY, LISTENING or by self-resync (R6, R32, R46). -/
def State.enterRejoining (s : State) (piece : Option Piece) : State :=
  let fromListening := s.station.state == .listening
  let s := s.flushStrikes.setReader (s.reader.clear .scanPending)
  let s := s.setStation
    { s.station with
      state := .rejoining, activePiece := piece, returnState := none, companyDeadline := none, joinDeadline := none
      keepalive := if fromListening then some (s.now + s.quarter) else s.station.keepalive }
  ((s.setClock s.clock.unset).withdraw TxFrame.isMark).rejoinTest

/-- A running scan takes the entry threshold as its target (R46). DESIGN CHOICE (log 79): a hold number that a start-bar scan has noted stays with the scan and never reaches the clock where a boundary with S still provisional makes it an entry scan. -/
def Reader.aimAtEntry (r : Reader) : Reader := { r with scan := r.scan.map fun sc => { sc with target := .entry } }

/-- The station leaves COUNTIN for REJOINING with its clock running (R35). -/
def State.leaveCountin (s : State) : State :=
  let threshold := ceilBeat (s.position + Config.beat)
  let s := s.flushStrikes.setReader s.reader.aimAtEntry
  let s := s.setClock { s.clock with start := none, entryThreshold := some threshold, entryBar := none, selfOutliers := 0 }
  (s.setStation { s.station with state := .rejoining }).withdraw TxFrame.isMark

/-! ## Holds -/

/-- The limit of a hold in µs (R36). -/
def Options.holdLimitTime (o : Options) (override : Nat) : Time :=
  1000000 * (if override = 0 then o.holdLimit else min override 60 : Nat)

/-- The hold state on entry to HOLDING (R36, R26). -/
def State.newHold (s : State) (number : Nat) (owner : Bool) (ms limit : Nat) : HoldState :=
  { number := number, pos := s.position, start := s.now, limit := s.now + s.options.holdLimitTime limit, owner := owner,
    ownerDeadline := if owner ∧ ms ≠ 0 then some (s.now + 1000 * ms) else none
    markDeadline := if s.station.state = .playing then some (s.now + s.quarter) else none }

/-- The RELEASE of a hold (R37). -/
def State.releaseFrame (s : State) (number : Nat) : TxFrame :=
  .release (pieceByte s.station.activePiece) (BitVec.ofNat 8 number)

/-- The station enters HOLDING at its present position; an entry at or below it that is not yet armed is armed at once (R36, R26, R37, R72). DESIGN CHOICE (log 35): the MARK of the entry is offered before the RELEASE of an owner duration of 0. -/
def State.enterHolding (s : State) (number : Nat) (owner : Bool) (ms limit : Nat) : State :=
  let h := s.newHold number owner ms limit
  let wasPlaying := s.station.state == .playing
  let s := s.setClock { s.clock with hold := some h }
  let s := s.setStation
    { s.station with state := .holding, returnState := some s.station.state, companyDeadline := none }
  let s := (s.holdQueue h.pos).armAllDue
  let s := if wasPlaying then s.offer .mark else s
  if owner ∧ ms = 0 then s.offer (s.releaseFrame number) else s

/-- A hold is reached in PLAYING or REJOINING (R36). -/
def State.reachHold (s : State) (number : Nat) (owner : Bool) (ms limit : Nat) : State :=
  if s.clock.remembered = some number then
    s.setClock { s.clock with remembered := none, lastPassed := some number }
  else s.enterHolding number owner ms limit

/-- A remembered release at or below `n` becomes none (R40, R43, R60). -/
def forgetUpTo (n : Nat) (remembered : Option Nat) : Option Nat := remembered.filter fun r => n < r

/-- Hold `n` has been passed (R40, R43, R60). -/
def Clock.passHold (c : Clock) (n : Nat) : Clock :=
  { c with lastPassed := some n, remembered := forgetUpTo n c.remembered }

/-- The clock at a release (R40). The self-outlier count is 0 in PLAYING, which the station enters, and in REJOINING (R32). -/
def Clock.release (c : Clock) (h : HoldState) (now : Time) : Clock :=
  { c.passHold h.number with
    b := now - rhu ((h.pos - c.pb) * c.l) Config.beat, pf := h.pos, marks := [], hold := none, selfOutliers := 0 }

/-- The frame is this station's RELEASE of a hold. -/
def TxFrame.isReleaseOf (f : TxFrame) (piece hold : Byte) : Bool :=
  match f with
  | .release p h => p == piece && h == hold
  | _ => false

/-- A station that stands in REJOINING again has no unsent MARK (R26, R154). -/
def State.withdrawMarkOnRejoin (s : State) : State :=
  match s.station.state with
  | .rejoining => s.withdraw TxFrame.isMark
  | _ => s

/-- The release of hold state `h` (R40), with the projections of R70 and R121. DESIGN CHOICE (log 82): the planner projects and arms before the DAMP events of that moment apply. -/
def State.releaseHold (s : State) (h : HoldState) : State :=
  let s := (s.setClock (s.clock.release h s.now)).consumeOffsets
  let s := s.withdraw fun f => f.isReleaseOf (pieceByte s.station.activePiece) (BitVec.ofNat 8 h.number)
  let s := s.setStation { s.station with state := s.station.returnState.getD .playing, returnState := none }
  s.withdrawMarkOnRejoin.projectAll.armAllDue.dampAll

/-! ## The clash (R10) -/

/-- The frames a clash withdraws. -/
def TxFrame.clashWithdraws (f : TxFrame) : Bool := f.isMark || f.isStart || f.isStop || f.isRelease

/-- Entry to HALTED. -/
def State.enterHalted (s : State) : State :=
  let fromListening := s.station.state == .listening
  let s := s.flushStrikes.setReader s.reader.quit
  let s := s.lowerDampers.stopRotor
  let s := s.setClock { s.clock.leavePiece with remembered := none }
  let s := s.setStation
    { s.station.toReady with
      state := .halted, joinDeadline := none
      keepalive := if fromListening then some (s.now + s.quarter) else s.station.keepalive }
  s.withdraw TxFrame.clashWithdraws

/-- A valid frame of kind `kind` bears this station's own number and is not its own (R10). -/
def State.clash (s : State) (kind : Nat) : State :=
  match s.station.state with
  | .offline => s
  | .halted | .service => s.raise srcClash kind
  | _ => s.enterHalted.raise srcClash kind

/-! ## The part reset (R1, R176) -/

/-- What a program or an erase in progress leaves in the store when a reset interrupts it (R176). -/
def State.storeAfterCut (s : State) : Memory :=
  match s.handler with
  | .programming addr data _ _ => s.store.programCut addr data s.freeCount
  | .erasing addr _ _ => s.store.eraseCut (sectorOf addr) s.freeCount
  | _ => s.store

/-- The free-value counter after a reset: it advances where an operation was interrupted. -/
def State.freeCountAfterCut (s : State) : Nat :=
  match s.handler with
  | .programming _ _ _ _ | .erasing _ _ _ => s.freeCount + 1
  | _ => s.freeCount

/-- Every block at its reset values, with a reset cause; what no reset reaches is kept: the queue of commands, the pins, the supply's state, the store (but for an interrupted operation) and the settings in force. -/
def State.partReset (s : State) (cause : ResetCause) : State :=
  { now := 0, pending := s.pending, resetNLow := s.resetNLow, supply := s.supply, powered := s.powered, straps := s.straps,
    station := .atReset s.straps cause s.station.startButton.asserted s.station.stopButton.asserted,
    roster := Vector.replicate 32 none, port := .atReset, clock := .atReset, reader := .atReset,
    planner := { queue := [], claims := [] }, channels := Vector.replicate 24 .atReset,
    inputs := Vector.replicate 24 .atReset, confirm := [], dampers := Vector.replicate 24 .atReset, rotor := .atReset,
    rail := .atReset, attention := .atReset, handler := .unoccupied, store := s.storeAfterCut, options := s.options,
    parts := s.parts, freeCount := s.freeCountAfterCut }

/-! ## What follows every command -/

/-- Finishing with the strike queue and the confirm list both empty (R11). -/
def State.finishReady (s : State) : Bool :=
  s.station.state == .playing && s.station.finishing && s.planner.queue.isEmpty && s.confirm.isEmpty

/-- The entry counts as company for a piece (R9). -/
def RosterEntry.isCompany (e : RosterEntry) (p : Option Piece) : Bool :=
  (e.announced == some .countin || e.announced == some .playing || e.announced == some .holding)
    && (match p with | some q => e.piece == .piece q | none => false)

/-- Some peer is company (R9). -/
def State.hasCompany (s : State) : Bool :=
  s.roster.any fun e => match e with
    | some x => x.isCompany s.station.activePiece
    | none => false

/-- The company deadline as R9 keeps it. -/
def State.companyKept (s : State) : Option Time :=
  if s.station.state = .rejoining ∧ !s.hasCompany then
    some (s.station.companyDeadline.getD (s.now + s.options.presenceTimeout))
  else none

/-- The deadline of R9 is set, kept or cancelled. -/
def State.keepCompany (s : State) : State := s.setStation { s.station with companyDeadline := s.companyKept }

/-- The reply to LEAVE_SERVICE has left the queue: the part resets (R14). -/
def State.leaveIfDone (s : State) : State :=
  match s.handler with
  | .leaving true => s.partReset .service
  | _ => s

/-- What comes about at the end of every command: finishing done (R11), holds of sensor inputs that end (R109), the company deadline (R9), the spontaneous REPORT (R162), and the reset that LEAVE_SERVICE waits for (R14). -/
def State.settle (s : State) : State :=
  let s := if s.finishReady then s.finishDone else s
  s.endHolds.keepCompany.offerReport.leaveIfDone

/-- The answer of a command: next, always. -/
abbrev Answer := Host.Outcome State Fault Refusal

/-- A command of moment `t` with effect `f`. A part held in reset does nothing; otherwise local time advances, the effect comes about, and what follows every command (log 1, 40). -/
def run (t : Nat) (f : State → State) (s : State) : Answer :=
  if s.held then .next s else .next (f (s.advance t)).settle

/-- An effect that a command has only while a condition holds (log 2). -/
def State.onlyIf (s : State) (b : Bool) (f : State → State) : State := if b then f s else s

end Sys2Proof.Machine
end

