-- ==== Sys2Proof/Machine/Reader.lean ====
section
/-! DEFINITION. The look-ahead reader: meters and the bar map (R52), items and their room (R48 to R50, R53, R54), the timeline list (R51), the mute window (R55 to R57) and END (R62). -/

set_option Elab.async false

namespace Sys2Proof.Machine

/-! ## Meters (R52) -/

/-- The next ordinary bar line. -/
def Meter.ordinaryLine (m : Meter) : Pos := m.barStart + m.bpb * Config.beat

/-- The meter at its next ordinary bar line. -/
def Meter.ordinaryStep (m : Meter) : Meter := { m with barStart := m.ordinaryLine, bar := stepTo 65535 m.bar }

/-- The meter at a pending change. -/
def BarChange.meter (ch : BarChange) : Meter := { barStart := ch.pos, bpb := ch.bpb, bar := ch.bar, change := none }

/-- The next bar line, where it lies at or below `p`: the pending change, in place of the ordinary line it cuts short or stands on, or the ordinary line. -/
def Meter.step (m : Meter) (p : Pos) : Option Meter :=
  let ordinary : Option Meter := if m.ordinaryLine ≤ p then some m.ordinaryStep else none
  match m.change with
  | some ch => if ch.pos ≤ m.ordinaryLine then (if ch.pos ≤ p then some ch.meter else none) else ordinary
  | none => ordinary

/-- The beats per bar of a BAR record, as taken. -/
def takenBpb (bpb : Nat) : Nat := clampNat 1 15 bpb

/-- A BAR record at `p`: a pending change at the first beat start at or after it, or, where the meter stands on that beat start, the change itself (log 33). -/
def Meter.setBar (m : Meter) (p : Pos) (bpb bar : Nat) : Meter :=
  if ceilBeat p = m.barStart then { m with bpb := takenBpb bpb, bar := bar, change := none }
  else { m with change := some { pos := ceilBeat p, bpb := takenBpb bpb, bar := bar } }

/-- Bar lines that can lie between a meter and `p`: one a beat at most. -/
def Meter.rounds (m : Meter) (p : Pos) : Nat := ((p - m.barStart) / Config.beat).toNat + 2

/-- A line enters the bar map: a line at the same position is replaced, and the oldest beyond eight is dropped. -/
def addLine (bars : List (Pos × Nat)) (m : Meter) : List (Pos × Nat) :=
  let bars := (bars.filter fun b => b.1 != m.barStart) ++ [(m.barStart, m.bar)]
  bars.drop (bars.length - Config.barMapDepth)

/-- The meter crosses the lines at or below `p`, and the bar map takes them. -/
def crossLines (p : Pos) : Nat → Meter × List (Pos × Nat) → Meter × List (Pos × Nat)
  | 0, x => x
  | n + 1, (m, bars) => match m.step p with
    | some m' => crossLines p n (m', addLine bars m')
    | none => (m, bars)

/-- The read meter crosses the lines at or below `p`. -/
def Reader.crossTo (r : Reader) (p : Pos) : Reader :=
  match r.meter with
  | none => r
  | some m =>
    let x := crossLines p (m.rounds p) (m, r.barMap)
    { r with meter := some x.1, barMap := x.2 }

/-- A BAR record at `p` reaches the read meter. -/
def Reader.takeBar (r : Reader) (p : Pos) (bpb bar : Nat) : Reader :=
  match r.meter with
  | none => r
  | some m =>
    let m' := m.setBar p bpb bar
    let r := { r with meter := some m', barMap := if m'.change.isSome then r.barMap else addLine r.barMap m' }
    r.crossTo p

/-- The bar of a position (R52). -/
def barOf (bars : List (Pos × Nat)) (p : Pos) : Option Nat := (bars.filter fun b => b.1 ≤ p).getLast?.map Prod.snd

/-! ## The mute window -/

/-- A position lies inside the mute window of the active piece (R56). -/
def State.muted (s : State) (r : Reader) (p : Pos) : Bool :=
  match r.mute, s.station.activePiece, barOf r.barMap p with
  | some w, some q, some b => w.piece == pieceByte (some q) && w.startBar ≤ b && b ≤ w.stopBar
  | _, _, _ => false

/-- The entry stays when a window is set: it is ARMED, or outside the window (R57). -/
def State.keptByMute (s : State) (e : StrikeEntry) : Bool := e.isArmed || !s.muted s.reader e.pos

/-- A new window removes the PLANNED entries inside it (R57). -/
def State.removeMuted (s : State) : State :=
  s.setPlanner { s.planner with queue := s.planner.queue.filter s.keptByMute }

/-! ## The timeline list (R51) -/

/-- An event takes its place by position, behind those at the same position. -/
def insertEvent (e : TimelineEvent) : List TimelineEvent → List TimelineEvent
  | [] => [e]
  | x :: xs => if e.pos < x.pos then e :: x :: xs else x :: insertEvent e xs

/-- The list has room for `n` more events. -/
def State.timelineRoom (s : State) (n : Nat) : Bool := s.reader.timeline.length + n ≤ Config.timelineDepth

/-- An event joins the list. -/
def State.addEvent (s : State) (p : Pos) (k : EventKind) : State :=
  s.setReader { s.reader with timeline := insertEvent { pos := p, kind := k } s.reader.timeline }

/-- The clock stands at a position: it runs, or it is frozen in HOLDING. -/
def State.hasPosition (s : State) : Bool := s.clockRuns || s.station.state == .holding

/-- The clock's position has passed `p`. DESIGN CHOICE (log 65): it has where `p` is the very position, so a ROTOR or DAMP event placed there is taken at once. -/
def State.passed (s : State) (p : Pos) : Bool := s.hasPosition && p ≤ s.position

/-- HOLD and END events are reached in PLAYING, and in REJOINING while the clock runs (R36, R45). -/
def State.reachesEvents (s : State) : Bool :=
  match s.station.state with
  | .playing => true
  | .rejoining => s.clock.isSet
  | _ => false

/-- An event is placed in the list, or counts as reached at once where the position has passed it (R51, R121, R127; log 28, 65). -/
def State.placeEvent (s : State) (p : Pos) (k : EventKind) : State :=
  match k with
  | .tempo _ | .bar _ _ => s.addEvent p k
  | .damp raise cs =>
    let set := s.damperSet cs
    if set = 0 then s
    else if s.passed p then s.dampPlaced p raise set
    else (s.addEvent p (.damp raise set)).dampAll
  | .rotor n =>
    if s.passed p then s.setRotor { s.rotor with pendingTarget := some (min n 32) } else s.addEvent p k
  | .hold number owner ms limit =>
    if s.passed p ∧ s.reachesEvents then s.reachHold number owner ms limit else s.addEvent p k
  | .endOfPart => if s.passed p ∧ s.reachesEvents then s.endReport else s.addEvent p k

/-! ## Items (R48) -/

/-- An item of the reader: the record at the cursor, or the next stroke of a roll. -/
inductive Item where
  | record (c : Cursor)
  | stroke (slot : Fin 4) (roll : RollRecord)
  deriving DecidableEq, Repr

def Item.pos : Item → Pos
  | .record c => c.position
  | .stroke _ r => r.next

/-- The first stroke by position, then by slot. -/
def Reader.firstStroke (r : Reader) : Option Item :=
  (List.finRange 4).foldl (fun best k => match r.rolls[k], best with
    | some x, some b => if x.next < b.pos then some (.stroke k x) else best
    | some x, none => some (.stroke k x)
    | none, _ => best) none

/-- The next item by position; the record before a stroke at its position (R48). -/
def Reader.nextItem (r : Reader) : Option Item :=
  match r.cursor, r.firstStroke with
  | some c, some k => if c.position ≤ k.pos then some (.record c) else some k
  | some c, none => some (.record c)
  | none, k => k

/-- The horizon (R48). -/
def State.horizon (s : State) : Pos := s.position + s.options.lookAhead * Config.beat

/-- The channels of a voice: the primary and the alternate, where the voice has a primary (3.1). -/
def State.voiceChannels (s : State) (voice : Nat) : Option (Chan × Option Chan) :=
  if h : voice < 128 then s.options.voices[voice].1.map fun p => (p, s.options.voices[voice].2) else none

/-- Step 3 of R50 on: a rest inside the mute window, else an entry of the queue; `none` where the queue has no room. DESIGN CHOICE (log 49): a roll's stroke and the single strike of a degraded roll are rests inside the mute window with or without room. -/
def State.takeStrike (s : State) (e : StrikeEntry) : Option State :=
  if s.muted s.reader e.pos then some s
  else if s.queueRoom then some (s.insertEntry e)
  else none

/-- The lowest-numbered free slot of the roll table. -/
def Reader.freeSlot (r : Reader) : Option (Fin 4) := (List.finRange 4).find? fun k => r.rolls[k].isNone

/-- A roll is admitted to a slot (R53). -/
def State.admitRoll (s : State) (k : Fin 4) (r : RollRecord) : State :=
  s.setReader { s.reader with rolls := s.reader.rolls.set k (some r) }

/-- The roll record that a ROLL at `p` leaves in the table (R53). -/
def rollOf (p : Pos) (voice velocity duration interval : Nat) (primary : Chan) : RollRecord :=
  { voice := voice, velocity := velocity, next := p, ends := p + 16 * duration, interval := interval, nextPreferred := primary }

/-- The velocity as taken (R50). -/
def takenVelocity (v : Nat) : Nat := min v 127

/-- A ROLL record that is neither a rest nor unassigned is admitted (R53). -/
def State.takeRoll (s : State) (p : Pos) (voice velocity duration interval : Nat) (chans : Chan × Option Chan) :
    Option State :=
  let single := newStrike p voice (takenVelocity velocity) chans.1 chans.2 false
  if interval = 0 ∨ duration = 0 then s.takeStrike single
  else match s.reader.freeSlot with
    | some k => some (s.admitRoll k (rollOf p voice (takenVelocity velocity) duration interval chans.1))
    | none => (s.takeStrike single).map fun _ => ((s.raise srcRollDegraded voice).takeStrike single).getD s

/-- The record at `p` of index `index` is delivered; `none` where its destination has no room (R48 to R50, R53). -/
def State.deliver (s : State) (p : Pos) (index : Nat) : Record → Option State
  | .unknown => some (s.raise srcUnknownRecord index)
  | .strike voice velocity =>
    if velocity = 0 then some s
    else match s.voiceChannels voice with
      | none => some (s.raise srcUnassignedVoice voice)
      | some ch => s.takeStrike (newStrike p voice (takenVelocity velocity) ch.1 ch.2 false)
  | .roll voice velocity duration interval =>
    if velocity = 0 then some s
    else match s.voiceChannels voice with
      | none => some (s.raise srcUnassignedVoice voice)
      | some ch => s.takeRoll p voice velocity duration interval ch
  | .event k =>
    if s.timelineRoom 1 then
      match k with
      | .bar bpb bar => some ((s.setReader (s.reader.takeBar p bpb bar)).placeEvent p k)
      | .endOfPart =>
        some ((s.setReader { s.reader with state := .ended, rolls := Vector.replicate 4 none }).placeEvent p k)
      | _ => some (s.placeEvent p k)
    else none

/-- The cursor after a record has been taken: an END stops the reading (R62). -/
def State.moveCursor (s : State) (c : Cursor) : State :=
  s.setReader { s.reader with cursor := some (s.nextCursor c) }

/-- The record at the cursor is taken, where it has room. The cursor moves before the delivery, which may send the station to READY. -/
def State.takeRecord (s : State) (c : Cursor) : Option State :=
  let rec' := s.recordAtCursor c
  let moved := if rec' = .event .endOfPart then s else s.moveCursor c
  moved.deliver c.position c.index rec'

/-- A roll after a stroke: further on, with the other channel next (R54). -/
def RollRecord.advance (r : RollRecord) (alternate : Option Chan) (primary : Chan) : RollRecord :=
  { r with
    next := r.next + 16 * r.interval
    nextPreferred := match alternate with
      | some a => if r.nextPreferred = primary then a else primary
      | none => r.nextPreferred }

/-- The voice's channel that is not the next preferred one (R54). -/
def otherChannel (preferred primary : Chan) (alternate : Option Chan) : Option Chan :=
  match alternate with
  | some a => if preferred = primary then some a else some primary
  | none => none

/-- The next stroke of a roll is taken, where it has room (R54). -/
def State.takeStroke (s : State) (k : Fin 4) (r : RollRecord) : Option State :=
  let chans : Chan × Option Chan := (s.voiceChannels r.voice).getD (r.nextPreferred, none)
  let e := newStrike r.next r.voice r.velocity r.nextPreferred (otherChannel r.nextPreferred chans.1 chans.2) true
  let r' := r.advance chans.2 chans.1
  let s := s.setReader { s.reader with rolls := s.reader.rolls.set k (if r'.ends ≤ r'.next then none else some r') }
  s.takeStrike e

/-- An item is taken, where it has room; the read meter crosses the bar lines up to it first (R52). -/
def State.takeItem (s : State) (i : Item) : Option State :=
  let s := s.setReader { s.reader.crossTo i.pos with busyUntil := s.now + Config.itemTime }
  match i with
  | .record c => s.takeRecord c
  | .stroke k r => s.takeStroke k r

/-- The reader takes its next item, if one lies within the horizon and has room, and the item before it is done (R48). -/
def State.readItem (s : State) : State :=
  if s.reader.state = .reading ∧ s.hasPosition ∧ s.reader.busyUntil ≤ s.now then
    match s.reader.nextItem with
    | some i => if i.pos ≤ s.horizon then (s.takeItem i).getD s else s
    | none => s
  else s

/-! ## Events the position reaches -/

/-- The event is a HOLD. -/
def TimelineEvent.isHold (e : TimelineEvent) : Bool :=
  match e.kind with
  | .hold _ _ _ _ => true
  | _ => false

/-- The event is an END. -/
def TimelineEvent.isEnd (e : TimelineEvent) : Bool :=
  match e.kind with
  | .endOfPart => true
  | _ => false

/-- The first event a test picks, with the list less that event. -/
def takeEventWhere (p : TimelineEvent → Bool) : List TimelineEvent → Option (TimelineEvent × List TimelineEvent)
  | [] => none
  | x :: xs => if p x then some (x, xs) else (takeEventWhere p xs).map fun r => (r.1, x :: r.2)

/-- The first HOLD event at or below the position is reached (R36). -/
def State.holdReached (s : State) : State :=
  match takeEventWhere (fun e => e.isHold && e.pos ≤ s.position) s.reader.timeline with
  | some (e, rest) =>
    let s := s.setReader { s.reader with timeline := rest }
    match e.kind with
    | .hold number owner ms limit => s.reachHold number owner ms limit
    | _ => s
  | none => s

/-- The first END event at or below the position is reached (R45). DESIGN CHOICE (log 48): HOLD_REACHED and END_REACHED of one moment come about in the order of the commands, an END even where a HOLD that is reached too stands before it in the list. -/
def State.endReached (s : State) : State :=
  match takeEventWhere (fun e => e.isEnd && e.pos ≤ s.position) s.reader.timeline with
  | some (_, rest) => (s.setReader { s.reader with timeline := rest }).endReport
  | none => s

end Sys2Proof.Machine
end

