-- ==== Sys2Proof/Machine/Scanner.lean ====
section
/-! DEFINITION. The scan to a start or entry bar: its records (R58), its lines (R59), the hand-over (R60, R34, R43) and its END (R61). -/

set_option Elab.async false

namespace Sys2Proof.Machine

/-- A BAR or TEMPO event. -/
def EventKind.ofMeter : EventKind → Bool
  | .bar _ _ | .tempo _ => true
  | _ => false

/-- A BAR or TEMPO record. -/
def Record.ofMeter : Record → Bool
  | .event k => k.ofMeter
  | _ => false

/-- From the record at `c` on, a BAR or TEMPO record still lies at position `q`, before any END. -/
def State.meterRecordAhead (s : State) (q : Pos) : Nat → Cursor → Bool
  | 0, _ => false
  | n + 1, c =>
    if c.position ≠ q ∨ s.recordAtCursor c = .event .endOfPart then false
    else (s.recordAtCursor c).ofMeter || s.meterRecordAhead q n (s.nextCursor c)

/-- A BAR or TEMPO record is left at position `q`, from the cursor on. -/
def State.meterAhead (s : State) (q : Pos) (c : Cursor) : Bool := s.meterRecordAhead q (s.activePart.2 + 1 - c.index) c

/-- The line the scan meter stands on is reached: every record below it is taken, and no BAR or TEMPO record is left at it (R59). -/
def State.lineReached (s : State) (sc : Scan) : Bool :=
  sc.meter.barStart < sc.cursor.position || !s.meterAhead sc.meter.barStart sc.cursor

/-- The line the scan meter stands on meets the target (R59). -/
def State.targetMet (s : State) (sc : Scan) : Bool :=
  match sc.target with
  | .startBar n => n ≤ sc.meter.bar
  | .entry => match s.clock.entryThreshold with
    | some th => th ≤ sc.meter.barStart
    | none => false

/-- The damper channels noted with a direction, as a set. -/
def Scan.noted (sc : Scan) (raise : Bool) : BitVec 24 :=
  allChannels.foldl (fun acc c => if sc.dampers[c] = some raise then acc ||| BitVec.twoPow 24 c.val else acc) 0

/-- The events of the noted states (R60 step 1): a raise, a lower, a rotor target. -/
def Scan.events (sc : Scan) : List EventKind :=
  (if sc.noted true = 0 then [] else [.damp true (sc.noted true)])
    ++ (if sc.noted false = 0 then [] else [.damp false (sc.noted false)])
    ++ (match sc.rotor with | some n => [.rotor n] | none => [])

/-- The first record at the scan's line or above (R60 step 3). -/
def Scan.resume (sc : Scan) : Cursor := if sc.groupStart.pos = sc.meter.barStart then sc.groupStart else sc.cursor

/-- The hand-over's four steps (R60): noted events, read meter and bar map, cursor, READING. The records held at the line are read in normal reading (log 58). -/
def State.completeHandOver (s : State) (sc : Scan) : State :=
  let s := sc.events.foldl (fun s k => s.placeEvent sc.meter.barStart k) s
  s.setReader
    { s.reader with
      state := .reading, scan := none, meter := some { sc.meter with change := none }
      barMap := [(sc.meter.barStart, sc.meter.bar)], cursor := some sc.resume }

/-- The scan's line is tested, and fails or is passed over. -/
def State.lineTested (s : State) (sc : Scan) : State :=
  s.setReader { s.reader with scan := some { sc with lineUntested := false } }

/-- What a start-bar scan hands to the clock before the correction: the latest hold passed (R60). -/
def Clock.takeLastHold (c : Clock) (h : Option Nat) : Clock :=
  match h with
  | some n => c.passHold n
  | none => c

/-- The start bar as the scan found it (R34). -/
def Scan.found (sc : Scan) : StartPosition :=
  { pos := sc.meter.barStart
    found := some { bpb := sc.meter.bpb, bar := sc.meter.bar, tempo := sc.tempo.map fun n => (n : Int) } }

/-- The start-bar scan meets its target: the start position is corrected, or the station goes to REJOINING and the scan carries on (R34, R60). -/
def State.handOverStart (s : State) (sc : Scan) : State :=
  let s := s.setClock (s.clock.takeLastHold sc.lastHold)
  if s.position < sc.meter.barStart then (s.setClock { s.clock with start := some sc.found }).completeHandOver sc
  else (s.lineTested sc).leaveCountin

/-- The entry scan meets its target: the entry bar is handed over (R43, R60). -/
def State.handOverEntry (s : State) (sc : Scan) : State :=
  let bar : EntryBar := { pos := sc.meter.barStart, bpb := sc.meter.bpb, bar := sc.meter.bar }
  (s.setClock { s.clock with entryBar := some bar }).completeHandOver sc

/-- The hand-over waits for room in the timeline list (R60; log 30). -/
def State.handOverWaits (s : State) (sc : Scan) : Bool :=
  sc.lineUntested && s.lineReached sc && s.targetMet sc && !s.timelineRoom sc.events.length

/-! ## Notes (R58) -/

/-- The notes of a DAMP record: its direction for each channel of kind DAMPER in its set (R58). -/
def State.noteDamp (s : State) (notes : Vector (Option Bool) 24) (raise : Bool) (cs : BitVec 24) :
    Vector (Option Bool) 24 :=
  (s.damperChannels.filter fun c => cs.getLsbD c.val).foldl (fun v (c : Chan) => v.set c (some raise)) notes

/-- A HOLD that an entry scan comes to (R43): passed, or placed where the list has room. -/
def State.scanHold (s : State) (p : Pos) (k : EventKind) (n : Nat) : Option State :=
  if s.hasPosition ∧ p < s.position then some (s.setClock (s.clock.passHold n))
  else if s.timelineRoom 1 then some (s.addEvent p k)
  else none

/-- The scan takes an event of position `p` into its meter or its notes, and an entry scan a HOLD as R43 states; `none` where that waits for the timeline list (R58). -/
def State.scanNote (s : State) (sc : Scan) (p : Pos) (k : EventKind) : Option (State × Scan) :=
  match k with
  | .bar bpb bar => some (s, { sc with meter := sc.meter.setBar p bpb bar })
  | .tempo us => some (s, { sc with tempo := some us })
  | .hold n _ _ _ => match sc.target with
    | .startBar _ => some (s, { sc with lastHold := some n })
    | .entry => (s.scanHold p k n).map fun t => (t, sc)
  | .damp raise cs => some (s, { sc with dampers := s.noteDamp sc.dampers raise cs })
  | .rotor n => some (s, { sc with rotor := some n })
  | .endOfPart => some (s, sc)

/-- The scan stands as `sc`. -/
def State.setScan (s : State) (sc : Scan) : State := s.setReader { s.reader with scan := some sc }

/-- The line at the position of the held records has failed the target, or there is none: they are noted now (R60; log 58). -/
def State.heldReady (s : State) (sc : Scan) : Bool :=
  !sc.held.isEmpty && !sc.lineUntested && (sc.meter.step sc.groupStart.position).isNone
    && !s.meterAhead sc.groupStart.position sc.cursor

/-- The first of the held records is noted; `none` where it waits for the timeline list. -/
def State.noteHeld (s : State) (sc : Scan) : Option State :=
  match sc.held with
  | [] => none
  | k :: rest => (s.scanNote { sc with held := rest } sc.groupStart.position k).map fun x => x.1.setScan x.2

/-! ## Lines (R59) -/

/-- One line is tested, a held record is noted, or the meter goes to its next line at or below the next record (R59); `none` where nothing is left to do before a record is taken. -/
def State.scanLine (s : State) (sc : Scan) : Option State :=
  if sc.lineUntested then
    if !s.lineReached sc ∨ s.handOverWaits sc then none
    else if s.targetMet sc then
      match sc.target with
      | .startBar _ => some (s.handOverStart sc)
      | .entry => some (s.handOverEntry sc)
    else some (s.lineTested sc)
  else if s.heldReady sc then s.noteHeld sc
  else (sc.meter.step sc.cursor.position).map fun m => s.setScan { sc with meter := m, lineUntested := true }

/-- The lines up to the next record are tested in turn. -/
def State.scanLines : Nat → State → State
  | 0, s => s
  | n + 1, s => match s.reader.scan with
    | none => s
    | some sc => match s.scanLine sc with
      | some s' => State.scanLines n s'
      | none => s

/-- Rounds for `scanLines`: a line is crossed and tested, one a beat at most, and the held records are noted. -/
def Scan.rounds (sc : Scan) : Nat := 2 * sc.meter.rounds sc.cursor.position + sc.held.length + 2

/-- The lines up to the next record of a running scan are tested. -/
def State.testLines (s : State) : State :=
  match s.reader.scan with
  | some sc => s.scanLines sc.rounds
  | none => s

/-! ## Records (R58) -/

/-- The scan with its cursor on the next record. -/
def State.scanMove (s : State) (sc : Scan) : Scan :=
  { sc with
    cursor := s.nextCursor sc.cursor
    groupStart := if sc.groupStart.pos = sc.cursor.pos then sc.groupStart else sc.cursor }

/-- The scan comes to an END before its target (R61, R35, R43). -/
def State.scanEnd (s : State) : State :=
  let s := if s.station.state = .countin then s.leaveCountin else s
  (s.setReader { s.reader with state := .ended, scan := none }).endReport

/-- The scan moves to the next record, and its 2 µs run. -/
def State.scanTo (s : State) (sc : Scan) : State :=
  s.setReader { s.reader with scan := some sc, busyUntil := s.now + Config.itemTime }

/-- The scan takes the record at its cursor; `none` where it waits for the timeline list (R58). A HOLD, DAMP or ROTOR record with a BAR or TEMPO record of its position still ahead is held (R60; log 58). -/
def State.scanTake (s : State) (sc : Scan) : Option State :=
  let p := sc.cursor.position
  match s.recordAtCursor sc.cursor with
  | .event .endOfPart => some s.scanEnd
  | .event k =>
    if !k.ofMeter && s.meterAhead p (s.nextCursor sc.cursor) then
      some (s.scanTo { s.scanMove sc with held := sc.held ++ [k] })
    else (s.scanNote (s.scanMove sc) p k).map fun x => x.1.scanTo x.2
  | _ => some (s.scanTo (s.scanMove sc))

/-- The held records wait for the timeline list. -/
def State.heldWaits (s : State) (sc : Scan) : Bool := s.heldReady sc && (s.noteHeld sc).isNone

/-- The record is taken and the lines up to the next one are tested; nothing where the hand-over or a record waits. -/
def State.scanOn (s : State) (sc : Scan) : State :=
  if s.handOverWaits sc ∨ s.heldWaits sc then s
  else match s.scanTake sc with
    | some s' => s'.testLines
    | none => s

/-- A running scan goes on by one record (R58, R59). A scan stands in the playing states only (R46). -/
def State.scanRecord (s : State) : State :=
  if s.station.state.playingState ∧ s.reader.state = .scanning ∧ s.reader.busyUntil ≤ s.now then
    let s := s.testLines
    match s.reader.scan with
    | some sc => s.scanOn sc
    | none => s
  else s

end Sys2Proof.Machine
end

