-- ==== Sys2Proof/Machine/ClockCommands.lean ====
section
/-! DEFINITION. Commands of the ensemble clock: the beat boundary (R23 to R34, R44), the hold (R36 to R38, R26) and END (R45). -/

set_option Elab.async false

namespace Sys2Proof.Machine

/-! ## The boundary (R23) -/

/-- Steps 1 and 2: the beat and the meter (R23, R24). The bar number moves in PLAYING alone. -/
def State.nextBeat (s : State) : State :=
  s.setClock (s.clock.nextBeat.advanceMeter (s.station.state == .playing))

/-- The clock takes the bar it enters at (R34, R44). -/
def Clock.enterBar (c : Clock) (bpb bar : Nat) : Clock := { c with bpb := bpb, bar := bar, beatInBar := 1, selfOutliers := 0 }

/-- The clock at the start position (R34). -/
def Clock.atStart (c : Clock) (f : FoundBar) : Clock :=
  { c.enterBar f.bpb f.bar with
    start := none
    tScore := match f.tempo with
      | some us => clampTempo us
      | none => c.tScore }

/-- The start-position test in COUNTIN (R34). -/
def State.startTest (s : State) : State :=
  match s.clock.start with
  | some p =>
    if s.clock.pb = p.pos then
      match p.found with
      | some f => (s.setClock (s.clock.atStart f)).setStation { s.station with state := .playing }
      | none => s.leaveCountin
    else s
  | none => s

/-- The clock at the entry bar (R44). -/
def Clock.atEntry (c : Clock) (e : EntryBar) : Clock :=
  { c.enterBar e.bpb e.bar with entryThreshold := none, entryBar := none }

/-- The station enters PLAYING at the entry bar (R44). -/
def State.enterAt (s : State) (e : EntryBar) : State :=
  ((s.setClock (s.clock.atEntry e)).setStation { s.station with state := .playing }).raise srcRejoined e.bar

/-- The threshold moves on where Pb has reached it (R43). -/
def Clock.moveThreshold (c : Clock) : Clock :=
  match c.entryThreshold with
  | some th => if th ≤ c.pb then { c with entryThreshold := some (c.pb + Config.beat) } else c
  | none => c

/-- The entry test in REJOINING (R43, R44). -/
def State.entryTest (s : State) : State :=
  match s.clock.entryBar with
  | some e => if s.clock.pb = e.pos then s.enterAt e else s
  | none => s.setClock s.clock.moveThreshold

/-- Step 3 (R23). -/
def State.positionTests (s : State) : State :=
  match s.station.state with
  | .countin => s.startTest
  | .rejoining => s.entryTest
  | _ => s

/-- The self-outlier count after an update in PLAYING (R32). -/
def Clock.outlierCount (c : Clock) : Nat := if selfOutlying c.marks then c.selfOutliers + 1 else 0

/-- The marks since the last update are judged and emptied (R32). -/
def Clock.judgeMarks (c : Clock) (playing : Bool) : Clock :=
  { c with selfOutliers := if playing then c.outlierCount else 0, marks := [] }

/-- Self-resync: the count returns to 0, and the station goes to REJOINING, or to READY when finishing (R32, R11). DESIGN CHOICE (log 86): when finishing, the clean-up of R7 abandons the open confirm records as R11 has it, though R114 says of self-resync that it abandons nothing. -/
def State.resync (s : State) : State :=
  let s := (s.setClock { s.clock with selfOutliers := 0 }).raise srcSelfResync s.clock.bar
  if s.station.finishing then s.cleanUp else s.enterRejoining s.station.activePiece

/-- The self-resync test that follows the follow update (R32). -/
def State.resyncTest (s : State) : State :=
  let s := s.setClock (s.clock.judgeMarks (s.station.state == .playing))
  if s.station.state = .playing ∧ 2 ≤ s.clock.selfOutliers then s.resync else s

/-- The beat within the bar is marked in this interval (R26). -/
def Clock.beatMarked (c : Clock) (m : MarkInterval) : Bool :=
  c.beatInBar == 1 || m == .everyBeat || (m == .everySecondBeat && c.beatInBar % 2 == 1)

/-- The position stands before the start position (R26). -/
def State.countingIn (s : State) : Bool :=
  s.station.state == .countin && (match s.clock.start with
    | some p => s.clock.pb < p.pos
    | none => false)

/-- This boundary is a mark boundary (R26). -/
def State.markBoundary (s : State) : Bool :=
  s.countingIn || ((s.station.state == .countin || s.station.state == .playing) && s.clock.beatMarked s.options.markInterval)

/-- Step 6 (R26). -/
def State.queueMark (s : State) : State := if s.markBoundary then s.offer .mark else s

/-- The clock's own steps at a boundary (R23); `l` is the length of the beat just ended. -/
def State.clockBoundary (s : State) (l : Int) : State :=
  (((s.nextBeat.positionTests.takeBoundaryEvents).followUpdate l).resyncTest).queueMark

/-- The rotor's part in a boundary, where the station is still in COUNTIN, REJOINING or PLAYING (R129). While the station finishes, the ROTOR events go and the rotor stays at rest (R131; log 59). -/
def State.rotorPart (s : State) (count : Nat) : State :=
  match s.station.state with
  | .countin | .rejoining | .playing => if s.station.finishing then s.takeRotorEvents.stopRotor else s.rotorBoundary count
  | _ => s

/-- A boundary: the clock, then the planner, the dampers and the rotor (R23, R70, R73, R121, R129; log 21). -/
def State.boundary (s : State) : State :=
  let count := s.rotor.window
  let l := s.clock.l
  (((s.setRotor { s.rotor with window := 0 }).clockBoundary l).projectAll.armAllDue.dampAll).rotorPart count

/-- BEAT_BOUNDARY (R23). -/
def execBeatBoundary (t : Nat) (s : State) : Answer :=
  run t (fun s => s.onlyIf (s.clockRuns && decide (s.clock.nextBoundary ≤ s.now)) State.boundary) s

/-! ## Holds -/

/-- HOLD_REACHED (R36). -/
def execHoldReached (t : Nat) (s : State) : Answer := run t (fun s => s.onlyIf s.reachesEvents State.holdReached) s

/-- The owner's deadline: a RELEASE is queued, and the station goes on holding (R37). -/
def State.ownerRelease (s : State) (h : HoldState) : State :=
  (s.setClock { s.clock with hold := some { h with ownerDeadline := none } }).offer (s.releaseFrame h.number)

/-- An effect on the hold of a station in HOLDING. -/
def State.inHold (s : State) (f : HoldState → State) : State :=
  match s.station.state, s.clock.hold with
  | .holding, some h => f h
  | _, _ => s

/-- The deadline of a hold has come. -/
def reached (d : Option Time) (now : Time) : Bool :=
  match d with
  | some t => t ≤ now
  | none => false

/-- OWNER_DEADLINE (R37). -/
def execOwnerDeadline (t : Nat) (s : State) : Answer :=
  run t (fun s => s.inHold fun h => s.onlyIf (reached h.ownerDeadline s.now) fun s => s.ownerRelease h) s

/-- HOLD_LIMIT (R38). -/
def execHoldLimit (t : Nat) (s : State) : Answer :=
  run t (fun s => s.inHold fun h =>
    s.onlyIf (h.limit ≤ s.now) fun s => (s.releaseHold h).raise srcHoldTimeout h.number) s

/-- The hold-mark deadline: a MARK, and a quarter of the presence timeout more (R26). -/
def State.holdMark (s : State) (h : HoldState) : State :=
  (s.setClock { s.clock with hold := some { h with markDeadline := h.markDeadline.map fun d => d + s.quarter } }).offer .mark

/-- HOLD_MARK_DEADLINE (R26). -/
def execHoldMarkDeadline (t : Nat) (s : State) : Answer :=
  run t (fun s => s.inHold fun h => s.onlyIf (reached h.markDeadline s.now) fun s => s.holdMark h) s

/-! ## END -/

/-- END_REACHED (R45). -/
def execEndReached (t : Nat) (s : State) : Answer := run t (fun s => s.onlyIf s.reachesEvents State.endReached) s

end Sys2Proof.Machine
end

