-- ==== Sys2Proof/Machine/DamperCommands.lean ====
section
/-! DEFINITION. Commands of the dampers and the rotor (R122 to R124, R128). -/

set_option Elab.async false

namespace Sys2Proof.Machine

/-- DAMP_APPLY (R122): the channel's first due DAMP event applies. -/
def execDampApply (t : Nat) (channel : Chan) (s : State) : Answer :=
  run t (fun s => s.onlyIf ((s.settings channel).kind == .damper) fun s => s.dampChannel channel) s

/-- A pull-in that is due. -/
def Damper.pullsInBy (d : Damper) (now : Time) : Bool :=
  d.state == .raising && (match d.pullInEnd with
    | some t => t ≤ now
    | none => false)

/-- The pull-in of a damper ends, and its slot is granted (R123). -/
def State.endPullIn (s : State) (c : Chan) : State := (s.setDamper c (s.damper c).endPullIn).slotFreed

/-- PULL_IN_END (R123). -/
def execPullInEnd (t : Nat) (channel : Chan) (s : State) : Answer :=
  run t (fun s => s.onlyIf ((s.damper channel).pullsInBy s.now) fun s => s.endPullIn channel) s

/-- A check that is due fails: DAMPER_FAULT (R124). -/
def State.failCheck (s : State) (c : Chan) : State :=
  match (s.damper c).check with
  | some k => if k.deadline ≤ s.now then (s.setDamper c ((s.damper c).checkFails k)).raise srcDamperFault c.val else s
  | none => s

/-- DAMPER_CHECK_DEADLINE (R124). -/
def execDamperCheckDeadline (t : Nat) (channel : Chan) (s : State) : Answer := run t (fun s => s.failCheck channel) s

/-- TACH_EDGE (R128): an edge counts while the clock runs. -/
def execTachEdge (t : Nat) (s : State) : Answer :=
  run t (fun s => s.onlyIf s.clockRuns fun s => s.setRotor s.rotor.countEdge) s

end Sys2Proof.Machine
end

