-- ==== Sys2Proof/Machine/HitCommands.lean ====
section
/-! DEFINITION. Commands of the hit monitor (R103 to R109, R112). -/

set_option Elab.async false

namespace Sys2Proof.Machine

/-- The time of the first of three samples, the last of them now (R103). -/
def State.impactNow (s : State) : Time := s.now - 2 * Config.sensorPeriod

/-- The input is sampled: it is watched, and validation has named it (R103). -/
def State.samples (s : State) (i : Chan) : Bool := s.station.state != .offline && s.isWatched i

/-- The stuck deadline of an EDGE_LEVEL hit input starts at an assertion (R105). -/
def SensorInput.startStuck (x : SensorInput) (mode : SensorMode) (impact : Time) : SensorInput :=
  match mode with
  | .edge => x
  | .edgeLevel => { x with stuckDeadline := some (impact + Config.stuckTime) }

/-- What a qualified assertion does at a hit input (R104, R105). -/
def State.hitAssertion (s : State) (i : Chan) : State :=
  (s.setInput i ((s.input i).startStuck (s.inputMode i) s.impactNow)).judgeAssertion i s.impactNow

/-- A qualified assertion: three asserted samples end now (R103, R104, R124; log 12). -/
def State.assertInput (s : State) (i : Chan) : State :=
  let s := s.setInput i ((s.input i).sample3 true)
  let s := s.sensedBy i true
  if s.isHitInput i then s.hitAssertion i else s

/-- SENSOR_ASSERTION (R104). -/
def execSensorAssertion (t : Nat) (input : Chan) (s : State) : Answer :=
  run t (fun s => s.onlyIf (s.samples input && !(s.input input).asserted) fun s => s.assertInput input) s

/-- The EDGE_LEVEL input lets its latch, stuck flag and stuck deadline go (R104, R105). -/
def SensorInput.letGo (x : SensorInput) : SensorInput := { x with latch := none, stuck := false, stuckDeadline := none }

/-- What a qualified release does at a hit input: nothing in EDGE; in EDGE_LEVEL an unused edge is judged, and the latch goes (R104). -/
def State.hitRelease (s : State) (i : Chan) : State :=
  match s.inputMode i with
  | .edge => s
  | .edgeLevel =>
    let s := match (s.input i).latch with
      | some l => if l.edgeUsed then s else s.judgeUnmatched i l
      | none => s
    s.setInput i (s.input i).letGo

/-- A qualified release: three deasserted samples end now (R103, R104, R124). -/
def State.releaseInput (s : State) (i : Chan) : State :=
  let s := s.setInput i ((s.input i).sample3 false)
  let s := s.sensedBy i false
  if s.isHitInput i then s.hitRelease i else s

/-- SENSOR_RELEASE (R104). -/
def execSensorRelease (t : Nat) (input : Chan) (s : State) : Answer :=
  run t (fun s => s.onlyIf (s.samples input && (s.input input).asserted) fun s => s.releaseInput input) s

/-- A pending window that is due. -/
def ConfirmRecord.opensBy (r : ConfirmRecord) (now : Time) : Bool := !r.isOpen && r.opens ≤ now

/-- The first due window opens: its record takes the latch, or waits open (R107, R108). -/
def State.openWindow (s : State) : State :=
  match takeConfirm (fun r => r.opensBy s.now) s.confirm with
  | none => s
  | some (r, rest) => ((s.setConfirm rest).windowMatch r).getD
      (s.setConfirm (markFirstOpen (fun r => r.opensBy s.now) s.confirm))

/-- WINDOW_OPEN (R107). -/
def execWindowOpen (t : Nat) (s : State) : Answer := run t State.openWindow s

/-- An open window whose close time has come. -/
def ConfirmRecord.closesBy (r : ConfirmRecord) (now : Time) : Bool := r.isOpen && r.closes ≤ now

/-- The first open window that is due closes unmatched (R112). -/
def State.closeWindow (s : State) : State :=
  match takeConfirm (fun r => r.closesBy s.now) s.confirm with
  | none => s
  | some (r, rest) => (s.setConfirm rest).missed r

/-- WINDOW_CLOSE (R112). -/
def execWindowClose (t : Nat) (s : State) : Answer := run t State.closeWindow s

/-- The channels a stuck deadline disables: all on the input, or, at the re-check of R106, those not DISABLED (R105, R106). -/
def State.stuckChannels (s : State) (i : Chan) : List Chan :=
  if (s.input i).stuck then (s.strikersOn i).filter fun c => (s.channel c).disabled.isNone else s.strikersOn i

/-- The stuck deadline of an input has come (R105, R106). DESIGN CHOICE (log 52): CHANNEL_STUCK is raised by ascending channel number. -/
def State.stick (s : State) (i : Chan) : State :=
  let cs := s.stuckChannels i
  cs.foldl State.disableStuck (s.setInput i { s.input i with stuck := true, stuckDeadline := none })

/-- The input's stuck deadline is due. -/
def SensorInput.sticksBy (x : SensorInput) (now : Time) : Bool :=
  match x.stuckDeadline with
  | some d => d ≤ now
  | none => false

/-- STUCK_DEADLINE (R105). -/
def execStuckDeadline (t : Nat) (input : Chan) (s : State) : Answer :=
  run t (fun s => s.onlyIf ((s.input input).sticksBy s.now) fun s => s.stick input) s

end Sys2Proof.Machine
end

