-- ==== Sys2Proof/Machine/LifeCommands.lean ====
section
/-! DEFINITION. Commands of the station's life: reset and supply (R1, R141, R142), validation (R2), deadlines (R3, R9, R12, R16) and the buttons (R8). -/

set_option Elab.async false

namespace Sys2Proof.Machine

/-- A deadline that may be none has come. -/
def due (d : Option Time) (now : Time) : Bool :=
  match d with
  | some t => t ≤ now
  | none => false

/-! ## Reset and supply -/

/-- The part enters reset: every block's state is lost, and the cause will be recorded when the reset ends (R1, R96, R117, R141, R176). -/
def State.enterReset (s : State) : State := if s.held then s else s.partReset s.station.cause

/-- The part leaves reset with a cause, unless another condition still holds it (R1). -/
def State.endReset (s : State) (cause : ResetCause) : State := if s.held then s else s.partReset cause

/-- RESET_N_ASSERT (R1, R96). -/
def execResetNAssert (_t : Nat) (s : State) : Answer := .next { s.enterReset with resetNLow := true }

/-- RESET_N_RELEASE (R1). -/
def execResetNRelease (straps : StationNo) (s : State) : Answer :=
  if s.resetNLow then .next (State.endReset { s with resetNLow := false, straps := straps } .pin) else .next s

/-- SUPPLY_FALL (R141, R143). -/
def execSupplyFall (_t : Nat) (s : State) : Answer := .next { s.enterReset with supply := .low }

/-- The cause a release of the logic-supply monitor gives (R142). -/
def State.supplyCause (s : State) : ResetCause := if s.powered then .supply else .power

/-- SUPPLY_RISE (R141, R142). -/
def execSupplyRise (straps : StationNo) (s : State) : Answer :=
  if s.supply = .low then
    .next (State.endReset { s with supply := .good, powered := true, straps := straps } s.supplyCause)
  else .next s

/-- RETENTION_LOSS (R142). -/
def execRetentionLoss (s : State) : Answer := .next { s with powered := false }

/-! ## Validation (R2) -/

/-- The settings and parts that validation finds are in force; the rail is judged and the line is listened to from now on (R2, R134, R147, R168, R169). -/
def State.adopt (s : State) (o : Options) : State :=
  { s with
    options := o
    parts := checkParts s.store
    rail := { s.rail with judging := true, downRun := 0, cutRun := 0, upRun := 0 }
    port := { s.port with
      quietSince := none, listenFrom := s.now, acceptFrom := s.now + quietGap o.bitTime, rx := .waiting } }

/-- Validation completes in OFFLINE (R2). -/
def State.validate (s : State) : State :=
  match parseOptions s.store with
  | some o => (s.adopt o).enterListening
  | none =>
    let s := s.adopt .factory
    s.setStation { s.station with state := .service, keepalive := some (s.now + s.quarter) }

/-- VALIDATION_COMPLETE (R2). -/
def execValidationComplete (t : Nat) (s : State) : Answer :=
  run t (fun s => s.onlyIf (s.station.state == .offline) State.validate) s

/-! ## Deadlines -/

/-- The join deadline passes: READY, an ANNOUNCE, and the keepalive deadline (R3, R12). -/
def State.join (s : State) : State :=
  (s.setStation
    { s.station with state := .ready, joinDeadline := none, keepalive := some (s.now + s.quarter) }).offer .announce

/-- JOIN_DEADLINE (R3). -/
def execJoinDeadline (t : Nat) (s : State) : Answer :=
  run t (fun s => s.onlyIf (s.station.state == .listening && due s.station.joinDeadline s.now) State.join) s

/-- The keepalive deadline moves on a quarter of the presence timeout, and an ANNOUNCE is queued unless one is unsent (R12). -/
def State.keepAlive (s : State) : State :=
  let s := s.setStation { s.station with keepalive := s.station.keepalive.map fun d => d + s.quarter }
  if s.port.hasUnsent TxFrame.isAnnounce then s else s.offer .announce

/-- KEEPALIVE_DEADLINE (R12). -/
def execKeepaliveDeadline (t : Nat) (s : State) : Answer :=
  run t (fun s => s.onlyIf (due s.station.keepalive s.now) State.keepAlive) s

/-- COMPANY_DEADLINE (R9). -/
def execCompanyDeadline (t : Nat) (s : State) : Answer :=
  run t (fun s => s.onlyIf (s.station.state == .rejoining && due s.station.companyDeadline s.now) State.cleanUp) s

/-- The entry's removal raises PEER_LOST (R16). -/
def RosterEntry.lostPlaying (e : RosterEntry) : Bool :=
  match e.announced with
  | some st => st.playingState
  | none => false

/-- An entry whose presence deadline has come is removed (R16), and the reference is tested (R41). -/
def State.lapse (s : State) (n : StationNo) : State :=
  match s.peer n with
  | some e =>
    if e.presence ≤ s.now then
      let s := s.setPeer n none
      (if e.lostPlaying then s.raise srcPeerLost n.val else s).rejoinTest
    else s
  | none => s

/-- PRESENCE_DEADLINE (R16). -/
def execPresenceDeadline (t : Nat) (peer : StationNo) (s : State) : Answer := run t (fun s => s.lapse peer) s

/-! ## Buttons (R8) -/

/-- The qualifier follows an edge of its pin (R8). DESIGN CHOICE (log 88): an edge taken at the very moment the 20 ms before it end, ahead of the press or release command of that moment, lets the press or release go. -/
def Qualifier.edge (q : Qualifier) (asserted : Bool) (now : Time) : Qualifier :=
  if q.asserted = asserted then q
  else
    { asserted := asserted, since := now
      state := match q.state with
        | .released => if asserted then .pressing else .released
        | .pressing => if asserted then .pressing else .released
        | .pressed => .pressed }

/-- The pin has stood at its level for 20 ms. -/
def Qualifier.settled (q : Qualifier) (now : Time) : Bool := Config.buttonTime ≤ now - q.since

/-- A press qualifies now. -/
def Qualifier.presses (q : Qualifier) (now : Time) : Bool := q.state == .pressing && q.asserted && q.settled now

/-- A release qualifies now. -/
def Qualifier.releases (q : Qualifier) (now : Time) : Bool := q.state == .pressed && !q.asserted && q.settled now

/-- The qualifier of a button. -/
def Station.button (st : Station) : Button → Qualifier
  | .startIn => st.startButton
  | .stopIn => st.stopButton

/-- The qualifier of a button takes a value. -/
def Station.setButton (st : Station) (b : Button) (q : Qualifier) : Station :=
  match b with
  | .startIn => { st with startButton := q }
  | .stopIn => { st with stopButton := q }

/-- A button's pin changes level. -/
def State.buttonEdge (s : State) (b : Button) (asserted : Bool) : State :=
  s.setStation (s.station.setButton b ((s.station.button b).edge asserted s.now))

/-- A pin that changes while the part is held in reset stands at its new level when the reset ends (log 13). -/
def State.pinChanged (s : State) (b : Button) (asserted : Bool) : State :=
  s.setStation (s.station.setButton b { s.station.button b with asserted := asserted })

/-- BUTTON_INPUT_EDGE (R8). -/
def execButtonInputEdge (t : Nat) (button : Button) (asserted : Bool) (s : State) : Answer :=
  if s.held then .next (s.pinChanged button asserted) else run t (fun s => s.buttonEdge button asserted) s

/-- A button is in the state pressed. -/
def State.pressed (s : State) (b : Button) : State :=
  s.setStation (s.station.setButton b { s.station.button b with state := .pressed })

/-- The START of a START_IN press, from the option defaults (R8). -/
def Options.buttonStart (o : Options) : TxFrame :=
  .start (BitVec.ofNat 8 o.defaultPiece.val) 1 (BitVec.ofNat 8 o.defaultLead) (BitVec.ofInt 24 o.defaultTempo)

/-- The STOP of a STOP_IN press: reason BUTTON (R8). -/
def buttonStop : TxFrame := .stop 0x01

/-- A press of START_IN qualifies (R8). -/
def State.pressStart (s : State) : State :=
  let s := s.pressed .startIn
  if s.station.state = .ready ∧ !s.port.hasUnsent TxFrame.isStart then s.offer s.options.buttonStart else s

/-- A press of STOP_IN qualifies (R8). -/
def State.pressStop (s : State) : State :=
  let s := s.pressed .stopIn
  if s.station.state.playingState ∧ !s.port.hasUnsent TxFrame.isStop then s.offer buttonStop else s

/-- START_IN_PRESS (R8). -/
def execStartInPress (t : Nat) (s : State) : Answer :=
  run t (fun s => s.onlyIf (s.station.startButton.presses s.now) State.pressStart) s

/-- STOP_IN_PRESS (R8). -/
def execStopInPress (t : Nat) (s : State) : Answer :=
  run t (fun s => s.onlyIf (s.station.stopButton.presses s.now) State.pressStop) s

/-- A button is released. -/
def State.released (s : State) (b : Button) : State :=
  s.setStation (s.station.setButton b { s.station.button b with state := .released })

/-- BUTTON_RELEASE_QUALIFIED (R8). -/
def execButtonReleaseQualified (t : Nat) (button : Button) (s : State) : Answer :=
  run t (fun s => s.onlyIf ((s.station.button button).releases s.now) fun s => s.released button) s

end Sys2Proof.Machine
end

