-- ==== Sys2Proof/Machine/FrameCommands.lean ====
section
/-! DEFINITION. Commands for the frames of other stations: the roster (R15, R17 to R19), START, STOP and RELEASE (R4, R5, R7, R33, R39), MARK (R28, R29), MUTE (R55) and QUERY (R164). A frame whose sender is this station's own number is a clash (R10, R156; log 9). -/

set_option Elab.async false

namespace Sys2Proof.Machine

/-! ## The roster (1.8) -/

/-- The pinned class of a station, if it is pinned (R18). -/
def Options.pinOf (o : Options) (n : StationNo) : Option InstrClass := o.pins.lookup n

/-- A new entry (R15). -/
def Options.newEntry (o : Options) (n : StationNo) : RosterEntry :=
  { cls := o.pinOf n, pinned := (o.pinOf n).isSome, announced := none, piece := .unknown, presence := 0, lastMark := none,
    frames := 0, outliers := 0, unusable := 0 }

/-- The entry of a sender as a valid frame leaves it (R15). -/
def State.touchedEntry (s : State) (n : StationNo) : RosterEntry :=
  let e := (s.peer n).getD (s.options.newEntry n)
  { e with presence := s.now + s.options.presenceTimeout, frames := step16 e.frames }

/-- The roster update of a valid frame (R15). -/
def State.touch (s : State) (n : StationNo) : State := s.setPeer n (some (s.touchedEntry n))

/-- A peer's entry, where there is one, changes. -/
def State.updatePeer (s : State) (n : StationNo) (f : RosterEntry → RosterEntry) : State := s.setPeer n ((s.peer n).map f)

/-- The announced piece a byte gives (R17). -/
def announcedPiece (b : Byte) : AnnouncedPiece :=
  if b = 0xFF then .none
  else match pieceOf b with
    | some p => .piece p
    | none => .unknown

/-- Announced state and piece (R17). -/
def RosterEntry.announce (e : RosterEntry) (state piece : Byte) : RosterEntry :=
  { e with announced := StationState.ofCode state, piece := announcedPiece piece }

/-- The receive stage has taken up the valid frame of kind `kind` that ends now (R147, R155). -/
def State.hearsFrame (s : State) (kind : Nat) : Bool := s.port.hears s.now (frameTime kind s.options.bitTime)

/-- A valid frame of another station: where the receive stage has taken it up, the line falls quiet at its frame end, the roster is updated, the frame acts, and the rejoin reference is tested (R15, R41, R146, R155, R156). -/
def State.receiveFrame (s : State) (sender : StationNo) (kind : Nat) (act : State → State) : State :=
  if s.station.state = .offline then s
  else if !s.hearsFrame kind then s.setPort (s.port.unheard (stopBitFrom s.now s.options.bitTime) s.options.bitTime)
  else
    let s := s.lineQuiet
    if sender = s.station.own then s.clash kind else (act (s.touch sender)).rejoinTest

/-! ## START (R4, R5, R33) -/

/-- The start bar as limited (R33). -/
def takenStartBar (b : BitVec 16) : Nat := if b = 0 then 1 else b.toNat

/-- The provisional start position (R33). -/
def Options.provisionalStart (o : Options) (startBar : BitVec 16) : Pos :=
  ((takenStartBar startBar : Int) - 1) * o.defaultBpb * Config.beat

/-- The clock at an accepted START (R33). -/
def Clock.countIn (c : Clock) (o : Options) (startBar : BitVec 16) (lead : Byte) (period : BitVec 24) (now : Time) : Clock :=
  let p := o.provisionalStart startBar
  let p0 := p - (clampNat 1 8 lead.toNat : Int) * Config.beat
  { c with
    isSet := true, pb := p0, pf := p0, b := now, l := clampTempo period.toNat, tScore := clampTempo period.toNat, d := 0,
    bpb := o.defaultBpb, beatInBar := 1, bar := 0, start := some { pos := p, found := none }, entryThreshold := none,
    entryBar := none, hold := none, remembered := none, lastPassed := none, marks := [], selfOutliers := 0 }

/-- The DISABLED STRIKER channels whose input is not asserted (R4, R98). -/
def State.enabledAtStart (s : State) : List Chan :=
  allChannels.filter fun c =>
    (s.settings c).kind == .striker && (s.channel c).disabled.isSome && !(s.input (s.settings c).input).asserted

/-- The channels of an accepted START are enabled (R98). -/
def State.enableAtStart (s : State) : State :=
  let cs := s.enabledAtStart
  State.releaseDeferred (cs.foldl (fun s c => s.setChannel c (s.channel c).enable) s) cs

/-- A START is accepted for a valid part (R4, R33). -/
def State.acceptStart (s : State) (p : Piece) (startBar : BitVec 16) (lead : Byte) (period : BitVec 24) : State :=
  let s := s.enableAtStart
  let s := (s.setClock (s.clock.countIn s.options startBar lead period s.now)).consumeOffsets
  let s := s.setStation { s.station with state := .countin, activePiece := some p }
  (s.startScan (.startBar (takenStartBar startBar))).setRotor { s.rotor with window := 0 }

/-- A START frame end, the station's own included (R4, R5). -/
def State.actStart (s : State) (piece : Byte) (startBar : BitVec 16) (lead : Byte) (period : BitVec 24) : State :=
  match s.station.state with
  | .countin | .rejoining | .playing | .holding => s.raise srcStartIgnored piece.toNat
  | .ready => match pieceOf piece with
    | none => s
    | some p => match s.parts[p] with
      | .valid _ _ => s.acceptStart p startBar lead period
      | .invalid => s.raise srcPartInvalid p.val
      | .noPart => s
  | _ => s

/-- START_FRAME (R4). -/
def execStartFrame (t : Nat) (sender : StationNo) (piece : Byte) (startBar : BitVec 16) (lead : Byte) (period : BitVec 24)
    (s : State) : Answer :=
  run t (fun s => s.receiveFrame sender 0x3 fun s => s.actStart piece startBar lead period) s

/-! ## STOP (R7) -/

/-- A STOP frame end, the station's own included (R7). -/
def State.actStop (s : State) : State := if s.station.state.playingState then s.cleanUp else s

/-- STOP_FRAME (R7). The reason changes nothing. -/
def execStopFrame (t : Nat) (sender : StationNo) (_reason : Byte) (s : State) : Answer :=
  run t (fun s => s.receiveFrame sender 0x4 State.actStop) s

/-! ## RELEASE (R39) -/

/-- A RELEASE for the active piece is remembered (R39). -/
def State.remember (s : State) (h : Nat) : State := s.setClock { s.clock with remembered := some h }

/-- A RELEASE for the active piece in HOLDING (R39). -/
def State.releaseInHolding (s : State) (hold : HoldState) (h : Nat) : State :=
  if h = hold.number then s.releaseHold hold
  else if h < hold.number then s.raise srcLateRelease h
  else s.remember h

/-- A RELEASE for the active piece in COUNTIN, REJOINING or PLAYING (R39). -/
def State.releaseRunning (s : State) (h : Nat) : State :=
  match s.clock.lastPassed with
  | some n => if h ≤ n then s.raise srcLateRelease h else s.remember h
  | none => s.remember h

/-- A RELEASE frame end, the station's own included (R39). -/
def State.actRelease (s : State) (piece hold : Byte) : State :=
  if s.station.activePiece.isSome ∧ piece = pieceByte s.station.activePiece then
    match s.station.state, s.clock.hold with
    | .holding, some h => s.releaseInHolding h hold.toNat
    | .countin, _ | .rejoining, _ | .playing, _ => s.releaseRunning hold.toNat
    | _, _ => s
  else s

/-- RELEASE_FRAME (R39). -/
def execReleaseFrame (t : Nat) (sender : StationNo) (piece hold : Byte) (s : State) : Answer :=
  run t (fun s => s.receiveFrame sender 0x5 fun s => s.actRelease piece hold) s

/-! ## MARK (R19, R28, R29) -/

/-- What this station's clock makes of a mark (R28). -/
inductive MarkUse where
  | offset
  /-- REJOINING with the position unset: the mark serves the rejoin reference -/
  | reference
  | unusable
  /-- this station is not in a playing state -/
  | recorded
  deriving DecidableEq, Repr

/-- The mark's state is one this station follows (R28). -/
def State.follows (s : State) (state hold : Byte) : Bool :=
  match s.station.state with
  | .countin => state == StationState.countin.code
  | .playing => state == StationState.playing.code
  | .rejoining => state == StationState.countin.code || state == StationState.playing.code
  | .holding => state == StationState.holding.code && (match s.clock.hold with
      | some h => hold.toNat == h.number
      | none => false)
  | _ => false

/-- A byte names the active piece. -/
def State.isActive (s : State) (piece : Byte) : Bool :=
  s.station.activePiece.isSome && piece == pieceByte s.station.activePiece

/-- The classification of a mark (R28). -/
def State.markUse (s : State) (state piece hold : Byte) : MarkUse :=
  if !s.station.state.playingState then .recorded
  else if s.isActive piece ∧ s.follows state hold then
    if s.station.state = .rejoining ∧ !s.clock.isSet then .reference else .offset
  else .unusable

/-- The last mark of an entry becomes this one (R19). -/
def RosterEntry.withMark (e : RosterEntry) (m : LastMark) : RosterEntry := { e with lastMark := some m }

/-- The mark with no offset, consumed (R19). -/
def bareMark (pos : BitVec 32) (len : BitVec 24) (state piece : Byte) (now : Time) : LastMark :=
  { pm := pos.toInt, lm := len.toNat, state := state, piece := piece, received := now, offset := none, consumed := true }

/-- A usable mark gives an offset: fresh within the capture range, an outlier beyond it (R28, R29). -/
def State.takeOffset (s : State) (n : StationNo) (m : LastMark) : State :=
  let o := m.pm - s.position
  let outlier : Bool := s.options.capture < (o.natAbs : Int)
  let s := s.updatePeer n fun e =>
    { e.withMark { m with offset := some o, consumed := outlier } with
      outliers := if outlier then step16 e.outliers else e.outliers }
  let s := s.setClock
    { s.clock with marks := s.clock.marks ++ [{ peer := n, outlier := outlier, sign := signOf o }] }
  if outlier then s.raise srcOutlier n.val else s

/-- The mark is recorded and classified (R19, R28, R29). -/
def State.takeMark (s : State) (n : StationNo) (m : LastMark) (use : MarkUse) : State :=
  match use with
  | .offset => s.takeOffset n m
  | .reference | .recorded => s.updatePeer n fun e => e.withMark m
  | .unusable => s.updatePeer n fun e => { e.withMark m with unusable := step16 e.unusable }

/-- The piece of a mark, where this station holds a valid part for it. -/
def State.validPart (s : State) (piece : Byte) : Option Piece :=
  (pieceOf piece).filter fun p => match s.parts[p] with
    | .valid _ _ => true
    | _ => false

/-- A mark in this state sends the station to REJOINING (R3, R6). -/
def State.callsToRejoin (s : State) (state : Byte) : Bool :=
  match s.station.state with
  | .listening =>
    state == StationState.countin.code || state == StationState.playing.code || state == StationState.holding.code
  | .ready => state == StationState.countin.code || state == StationState.playing.code
  | _ => false

/-- The station controller's part in a MARK (R3, R6). -/
def State.rejoinAt (s : State) (state piece : Byte) : State :=
  if s.callsToRejoin state then
    match s.validPart piece with
    | some p => s.enterRejoining (some p)
    | none => s
  else s

/-- A MARK of a peer (R17, R19, R28). -/
def State.actMark (s : State) (n : StationNo) (m : LastMark) (hold : Byte) : State :=
  let use := s.markUse m.state m.piece hold
  ((s.updatePeer n fun e => e.announce m.state m.piece).takeMark n m use).rejoinAt m.state m.piece

/-- MARK_FRAME (R28). The mark's bar is not kept (R19). -/
def execMarkFrame (t : Nat) (sender : StationNo) (pos : BitVec 32) (len : BitVec 24) (_bar : BitVec 16)
    (state piece hold : Byte) (s : State) : Answer :=
  run t (fun s => s.receiveFrame sender 0x2 fun s => s.actMark sender (bareMark pos len state piece s.now) hold) s

/-! ## ANNOUNCE (R17, R18) -/

/-- The class an ANNOUNCE leaves (R18). -/
def RosterEntry.takeClass (e : RosterEntry) (cls : Byte) : RosterEntry :=
  if e.pinned then e else { e with cls := InstrClass.ofCode cls }

/-- A pinned entry announces another class, or none (R18). -/
def RosterEntry.mismatch (e : RosterEntry) (cls : Byte) : Bool := e.pinned && InstrClass.ofCode cls != e.cls

/-- An ANNOUNCE of a peer (R17, R18). -/
def State.actAnnounce (s : State) (n : StationNo) (cls state piece : Byte) : State :=
  let differs : Bool := match s.peer n with
    | some e => e.mismatch cls
    | none => false
  let s := s.updatePeer n fun e => (e.takeClass cls).announce state piece
  if differs then s.raise srcCapabilityMismatch n.val else s

/-- ANNOUNCE_FRAME (R17). The reset cause is not kept. -/
def execAnnounceFrame (t : Nat) (sender : StationNo) (cls state piece _cause : Byte) (s : State) : Answer :=
  run t (fun s => s.receiveFrame sender 0x1 fun s => s.actAnnounce sender cls state piece) s

/-! ## MUTE (R55, R57) -/

/-- A MUTE for this station (R55, R57). -/
def State.setMute (s : State) (piece : Byte) (startBar stopBar : BitVec 16) (onOff : Byte) : State :=
  if onOff = 0 then s.setReader { s.reader with mute := none }
  else
    let s := s.setReader
      { s.reader with mute := some { piece := piece, startBar := startBar.toNat, stopBar := stopBar.toNat } }
    s.removeMuted

/-- A MUTE acts where the mask carries this station's number (R55). -/
def State.actMute (s : State) (mask : BitVec 32) (piece : Byte) (startBar stopBar : BitVec 16) (onOff : Byte) : State :=
  if mask.getLsbD s.station.own.val then s.setMute piece startBar stopBar onOff else s

/-- MUTE_FRAME (R55). -/
def execMuteFrame (t : Nat) (sender : StationNo) (mask : BitVec 32) (piece : Byte) (startBar stopBar : BitVec 16)
    (onOff : Byte) (s : State) : Answer :=
  run t (fun s => s.receiveFrame sender 0x6 fun s => s.actMute mask piece startBar stopBar onOff) s

/-! ## QUERY, REPORT and SVC_REPLY -/

/-- The answer to a QUERY: a REPORT bound to the highest pending item, or to none (R164). -/
def State.answerQuery (s : State) (requester : StationNo) : State := s.offer (.report s.highestPending (some requester))

/-- A QUERY taken at the moment of a clearing: its answer is one of the offers of that moment, which stand before the spontaneous REPORT (R161, R164; log 78). DESIGN CHOICE (log 90): in a full queue that REPORT, offered at the clearing, has taken the freed place, and the answer can be refused. -/
def State.answerFirst (s : State) : State :=
  if s.attention.clearedAt = some s.now then s.setPort (s.port.spontaneousLast s.now) else s

/-- A QUERY acts where its target is this station (R164). -/
def State.actQuery (s : State) (sender : StationNo) (target : Byte) : State :=
  if target = stationByte s.station.own then (s.answerQuery sender).answerFirst else s

/-- QUERY_FRAME (R164). -/
def execQueryFrame (t : Nat) (sender : StationNo) (target : Byte) (s : State) : Answer :=
  run t (fun s => s.receiveFrame sender 0x8 fun s => s.actQuery sender target) s

/-- REPORT_FRAME: the roster update alone (R156). -/
def execReportFrame (t : Nat) (sender : StationNo) (_source _level _count : Byte) (_detail : BitVec 16) (_queried : Byte)
    (s : State) : Answer :=
  run t (fun s => s.receiveFrame sender 0x7 id) s

/-- SVC_REPLY_FRAME: the roster update alone (R156). -/
def execSvcReplyFrame (t : Nat) (sender : StationNo) (_requester _status : Byte) (_addr : BitVec 16) (_data : BitVec 64)
    (s : State) : Answer :=
  run t (fun s => s.receiveFrame sender 0xA id) s

end Sys2Proof.Machine
end

