-- ==== Sys2Proof/Machine/ServiceCommands.lean ====
section
/-! DEFINITION. Commands of the service handler (chapter 11): the tests of R171, the store operations (R172, R173), the state-changing requests (R174, R13, R14, R98, R165) and the reading requests (R175). -/

set_option Elab.async false

namespace Sys2Proof.Machine

/-! ## Taking a request (R171) -/

/-- The handler is occupied. -/
def Handler.occupied : Handler → Bool
  | .unoccupied => false
  | _ => true

/-- An SVC_REPLY is offered. -/
def State.reply (s : State) (requester : StationNo) (status : SvcStatus) (addr : BitVec 16) (data : BitVec 64) : State :=
  s.offer (.svcReply requester status addr data false)

/-- The tests of R171 in order; `none` where none of them refuses the request. -/
def State.refusal (s : State) (accepted inRange aligned isProtected : Bool) : Option SvcStatus :=
  if s.handler.occupied then some .busy
  else if !accepted then some .wrongState
  else if !inRange then some .range
  else if !aligned then some .align
  else if isProtected then some .protectedSector
  else none

/-- A request for this station is tested, and refused with a reply or carried out (R171). -/
def State.takeRequest (s : State) (sender : StationNo) (target : Byte) (addr : BitVec 16) (refused : Option SvcStatus)
    (carryOut : State → State) : State :=
  if target = stationByte s.station.own then
    match refused with
    | some st => s.reply sender st addr 0
    | none => carryOut s
  else s

/-- The station is in SERVICE. -/
def State.inService (s : State) : Bool := s.station.state == .service

/-- A service frame of moment `t`. -/
def serviceFrame (t : Nat) (sender : StationNo) (act : State → State) (s : State) : Answer :=
  run t (fun s => s.receiveFrame sender 0x9 act) s

/-! ## The store (R172, R173) -/

/-- READ_STORE (R172). -/
def State.readStore (s : State) (sender : StationNo) (target : Byte) (addr : BitVec 16) : State :=
  s.takeRequest sender target addr (s.refusal true (addr.toNat ≤ 65528) true false) fun s =>
    s.reply sender .done addr (s.store.word addr.toNat)

/-- READ_STORE (R172). -/
def execReadStore (t : Nat) (sender : StationNo) (target : Byte) (addr : BitVec 16) (s : State) : Answer :=
  serviceFrame t sender (fun s => s.readStore sender target addr) s

/-- The sector of an address is protected (R170). -/
def State.protectedAt (s : State) (addr : BitVec 16) : Bool := s.options.protectStart ≤ sectorOf addr.toNat

/-- PROGRAM_STORE: an accepted request occupies the handler for 80 µs (R172). -/
def State.programStore (s : State) (sender : StationNo) (target : Byte) (addr : BitVec 16) (data : BitVec 64) : State :=
  s.takeRequest sender target addr (s.refusal s.inService true (addr.toNat % 8 = 0) (s.protectedAt addr)) fun s =>
    s.setHandler (.programming addr.toNat data sender (s.now + Config.programTime))

/-- PROGRAM_STORE (R172). -/
def execProgramStore (t : Nat) (sender : StationNo) (target : Byte) (addr : BitVec 16) (data : BitVec 64) (s : State) :
    Answer :=
  serviceFrame t sender (fun s => s.programStore sender target addr data) s

/-- The status of a finished program: DONE where the word read back is the data (R172). -/
def programStatus (read data : BitVec 64) : SvcStatus := if read = data then .done else .failed

/-- A program that is due finishes (R172). -/
def State.finishProgram (s : State) : State :=
  match s.handler with
  | .programming addr data requester ends =>
    if ends ≤ s.now then
      let s := { s with store := s.store.program addr data, handler := .unoccupied }
      s.reply requester (programStatus (s.store.word addr) data) (BitVec.ofNat 16 addr) (s.store.word addr)
    else s
  | _ => s

/-- PROGRAM_COMPLETE (R172). -/
def execProgramComplete (t : Nat) (s : State) : Answer := run t State.finishProgram s

/-- ERASE_SECTOR: an accepted request occupies the handler for 20 ms (R173). -/
def State.eraseSector (s : State) (sender : StationNo) (target : Byte) (addr : BitVec 16) : State :=
  s.takeRequest sender target addr (s.refusal s.inService true true (s.protectedAt addr)) fun s =>
    s.setHandler (.erasing addr.toNat sender (s.now + Config.eraseTime))

/-- ERASE_SECTOR (R173). -/
def execEraseSector (t : Nat) (sender : StationNo) (target : Byte) (addr : BitVec 16) (s : State) : Answer :=
  serviceFrame t sender (fun s => s.eraseSector sender target addr) s

/-- The status of a finished erase: DONE where every byte of the sector reads 0xFF (R173). -/
def eraseStatus (m : Memory) (sector : Nat) : SvcStatus := if m.erased sector then .done else .failed

/-- An erase that is due finishes (R173). -/
def State.finishErase (s : State) : State :=
  match s.handler with
  | .erasing addr requester ends =>
    if ends ≤ s.now then
      let s := { s with store := s.store.erase (sectorOf addr), handler := .unoccupied }
      s.reply requester (eraseStatus s.store (sectorOf addr)) (BitVec.ofNat 16 addr)
        (dataOf [BitVec.ofNat 8 (sectorOf addr)])
    else s
  | _ => s

/-- ERASE_COMPLETE (R173). -/
def execEraseComplete (t : Nat) (s : State) : Answer := run t State.finishErase s

/-! ## State-changing requests (R174) -/

/-- Entry to SERVICE from READY or HALTED: pulses in progress end as cut, and the reader is IDLE (R13, R46, R94). -/
def State.enterService (s : State) : State :=
  let s := s.cutPulses
  (s.setReader (s.reader.clear .idle)).setStation { s.station with state := .service }

/-- ENTER_SERVICE is accepted in READY and HALTED (11.5). -/
def State.takesEnterService (s : State) : Bool := s.station.state == .ready || s.station.state == .halted

/-- ENTER_SERVICE (R13, R174). -/
def State.requestEnterService (s : State) (sender : StationNo) (target : Byte) (addr : BitVec 16) : State :=
  s.takeRequest sender target addr (s.refusal s.takesEnterService true true false) fun s =>
    (s.reply sender .done addr 0).enterService

/-- ENTER_SERVICE (R13). -/
def execEnterService (t : Nat) (sender : StationNo) (target : Byte) (addr : BitVec 16) (s : State) : Answer :=
  serviceFrame t sender (fun s => s.requestEnterService sender target addr) s

/-- LEAVE_SERVICE: the handler is occupied until the reply has left the queue, lost or sent, and the reset follows (R14). -/
def State.requestLeaveService (s : State) (sender : StationNo) (target : Byte) (addr : BitVec 16) : State :=
  s.takeRequest sender target addr (s.refusal s.inService true true false) fun s =>
    (s.setHandler (.leaving false)).offer (.svcReply sender .done addr 0 true)

/-- LEAVE_SERVICE (R14). -/
def execLeaveService (t : Nat) (sender : StationNo) (target : Byte) (addr : BitVec 16) (s : State) : Answer :=
  serviceFrame t sender (fun s => s.requestLeaveService sender target addr) s

/-- PART_RESET (R174). -/
def State.requestPartReset (s : State) (sender : StationNo) (target : Byte) (addr : BitVec 16) : State :=
  s.takeRequest sender target addr (s.refusal true true true false) fun s => s.partReset .service

/-- PART_RESET (R174). -/
def execPartReset (t : Nat) (sender : StationNo) (target : Byte) (addr : BitVec 16) (s : State) : Answer :=
  serviceFrame t sender (fun s => s.requestPartReset sender target addr) s

/-- CLEAR_HALT (R10, R174). DESIGN CHOICE (log 87): the reply is offered before the entry to LISTENING withdraws the unsent ANNOUNCE and spontaneous REPORT, so it makes its way in the queue as it stood. -/
def State.requestClearHalt (s : State) (sender : StationNo) (target : Byte) (addr : BitVec 16) : State :=
  s.takeRequest sender target addr (s.refusal (s.station.state == .halted) true true false) fun s =>
    (s.reply sender .done addr 0).enterListening

/-- CLEAR_HALT (R10). -/
def execClearHalt (t : Nat) (sender : StationNo) (target : Byte) (addr : BitVec 16) (s : State) : Answer :=
  serviceFrame t sender (fun s => s.requestClearHalt sender target addr) s

/-- The re-check of a stuck input at an enable: its deadline is set afresh (R106). -/
def SensorInput.recheck (x : SensorInput) (now : Time) : SensorInput :=
  if x.stuck then { x with stuckDeadline := some (now + Config.stuckTime) } else x

/-- A channel is enabled by request; where it is not DISABLED, its consecutive misses become 0 and nothing else of the channel changes (R98, R75). The stuck deadline of a stuck input is set afresh in either case (R106; log 73). -/
def State.enableChannel (s : State) (c : Chan) : State :=
  if (s.settings c).kind = .striker then
    let i := (s.settings c).input
    let t := (s.setChannel c (s.channel c).enable).setInput i ((s.input i).recheck s.now)
    if (s.channel c).disabled.isSome then t.releaseDeferred [c] else t
  else s

/-- ENABLE_CHANNEL (R98, R174). -/
def State.requestEnableChannel (s : State) (sender : StationNo) (target : Byte) (addr : BitVec 16) : State :=
  s.takeRequest sender target addr (s.refusal true (addr.toNat < 24) true false) fun s =>
    match chanOf addr.toNat with
    | some c => (s.enableChannel c).reply sender .done addr 0
    | none => s

/-- ENABLE_CHANNEL (R98). -/
def execEnableChannel (t : Nat) (sender : StationNo) (target : Byte) (addr : BitVec 16) (s : State) : Answer :=
  serviceFrame t sender (fun s => s.requestEnableChannel sender target addr) s

/-- A CHECK item is raised for n from 1 to 7 (R165). -/
def State.raiseCheck (s : State) (requester : StationNo) (n : Byte) : State :=
  match srcCheck n.toNat with
  | some x => s.raise x requester.val
  | none => s

/-- CHECK (R165, R174). -/
def State.requestCheck (s : State) (sender : StationNo) (target : Byte) (addr : BitVec 16) (n : Byte) : State :=
  s.takeRequest sender target addr (s.refusal true true true false) fun s =>
    (s.raiseCheck sender n).reply sender .done addr 0

/-- CHECK (R165). -/
def execCheck (t : Nat) (sender : StationNo) (target : Byte) (addr : BitVec 16) (n : Byte) (s : State) : Answer :=
  serviceFrame t sender (fun s => s.requestCheck sender target addr n) s

/-! ## Reading requests (R175) -/

/-- The page of a reading request. -/
def pageOf (addr : BitVec 16) : Nat := addr.toNat / 256

/-- The index of a reading request. -/
def indexOf (addr : BitVec 16) : Nat := addr.toNat % 256

/-- A truth value as a byte. -/
def boolByte (b : Bool) : Byte := if b then 1 else 0

/-- The code of an announced piece in READ_ROSTER. -/
def AnnouncedPiece.code : AnnouncedPiece → Byte
  | .unknown => 0xFE
  | .none => 0xFF
  | .piece p => BitVec.ofNat 8 p.val

/-- The code of the last mark in READ_ROSTER page 0. -/
def lastMarkCode : Option LastMark → Byte
  | none => 0
  | some m => match m.offset with
    | none => 1
    | some _ => if m.consumed then 3 else 2

/-- READ_ROSTER page 0. -/
def RosterEntry.page0 (e : RosterEntry) : List Byte :=
  [1, (match e.cls with | some c => c.code | none => 0), boolByte e.pinned,
   (match e.announced with | some st => st.code | none => 0xFF), e.piece.code]
    ++ fieldBytes e.frames 2 ++ [lastMarkCode e.lastMark]

/-- READ_ROSTER page 1; the position of an absent mark is free (log 71). -/
def RosterEntry.page1 (now : Time) (n : StationNo) (e : RosterEntry) : List Byte :=
  fieldBytes e.outliers 2 ++ fieldBytes e.unusable 2
    ++ fieldBytes (match e.lastMark with | some m => BitVec.ofInt 32 m.pm | none => Config.absentPosition now n) 4

/-- The offset field of READ_ROSTER page 2 (log 17). -/
def offsetBits (now : Time) (m : LastMark) : BitVec 32 :=
  match m.offset with
  | some o => signedField (Config.offsetField now) o
  | none => 0

/-- READ_ROSTER page 2; the offset of an absent mark is 0, its length and state are free (log 71). -/
def RosterEntry.page2 (now : Time) (n : StationNo) (e : RosterEntry) : List Byte :=
  match e.lastMark with
  | some m => fieldBytes (offsetBits now m) 4 ++ fieldBytes (BitVec.ofInt 24 m.lm) 3 ++ [m.state]
  | none => [0, 0, 0, 0] ++ fieldBytes (Config.absentLength now n) 3 ++ [Config.absentState now n]

/-- The data of READ_ROSTER. -/
def State.rosterData (s : State) (page : Nat) (n : StationNo) : BitVec 64 :=
  match s.peer n with
  | none => 0
  | some e => dataOf (if page = 0 then e.page0 else if page = 1 then e.page1 s.now n else e.page2 s.now n)

/-- READ_ROSTER (R175). -/
def State.readRoster (s : State) (sender : StationNo) (target : Byte) (addr : BitVec 16) : State :=
  s.takeRequest sender target addr (s.refusal true (pageOf addr ≤ 2 && indexOf addr < 32) true false) fun s =>
    match stationOf (indexOf addr) with
    | some n => s.reply sender .done addr (s.rosterData (pageOf addr) n)
    | none => s

/-- READ_ROSTER (R175). -/
def execReadRoster (t : Nat) (sender : StationNo) (target : Byte) (addr : BitVec 16) (s : State) : Answer :=
  serviceFrame t sender (fun s => s.readRoster sender target addr) s

/-- READ_COUNTERS page 0. -/
def State.counters0 (s : State) : List Byte :=
  fieldBytes s.port.crcErrors 2 ++ fieldBytes s.port.framingErrors 2 ++ fieldBytes s.port.unknownKind 2
    ++ fieldBytes s.port.arbitrationLosses 2

/-- READ_COUNTERS page 1. -/
def State.counters1 (s : State) : List Byte :=
  fieldBytes s.port.txFailures 2 ++ fieldBytes s.port.txOverflow 2
    ++ [s.station.state.code, s.station.cause.code, pieceByte s.station.activePiece, BitVec.ofNat 8 s.port.length]

/-- READ_COUNTERS page 2, for a source. -/
def State.counters2 (s : State) (x : Source) : List Byte :=
  let it := (s.item x).getD { count := 0, firstDetail := 0, timeOfFirst := 0 }
  [boolByte (s.item x).isSome, BitVec.ofNat 8 (effectiveLevel s.options x), BitVec.ofNat 8 it.count]
    ++ fieldBytes it.firstDetail 2 ++ fieldBytes it.timeOfFirst 2 ++ [BitVec.ofNat 8 (attentionPlace s.options x)]

/-- The source with a number, if it is one. -/
def sourceOf (n : Nat) : Option Source := if h : 1 ≤ n ∧ n ≤ 33 then some ⟨n - 1, by omega⟩ else none

/-- The data of READ_COUNTERS. -/
def State.countersData (s : State) (addr : BitVec 16) : BitVec 64 :=
  if pageOf addr = 0 then dataOf s.counters0
  else if pageOf addr = 1 then dataOf s.counters1
  else match sourceOf (indexOf addr) with
    | some x => dataOf (s.counters2 x)
    | none => 0

/-- The address of READ_COUNTERS is in range. -/
def countersInRange (addr : BitVec 16) : Bool := pageOf addr < 2 || (pageOf addr == 2 && (sourceOf (indexOf addr)).isSome)

/-- READ_COUNTERS (R175). -/
def State.readCounters (s : State) (sender : StationNo) (target : Byte) (addr : BitVec 16) : State :=
  s.takeRequest sender target addr (s.refusal true (countersInRange addr) true false) fun s =>
    s.reply sender .done addr (s.countersData addr)

/-- READ_COUNTERS (R175). -/
def execReadCounters (t : Nat) (sender : StationNo) (target : Byte) (addr : BitVec 16) (s : State) : Answer :=
  serviceFrame t sender (fun s => s.readCounters sender target addr) s

/-- The code of a channel kind. -/
def ChannelKind.code : ChannelKind → Byte
  | .unused => 0 | .striker => 1 | .damper => 2

/-- The code of a channel state. -/
def ChannelState.code : ChannelState → Byte
  | .idle => 0 | .armed => 1 | .driving => 2 | .recovering => 3 | .disabled => 4
  | .lowered => 5 | .raising => 6 | .raised => 7 | .lowering => 8

/-- The code of a disable cause. -/
def causeCode : Option DisableCause → Byte
  | none => 0
  | some .misses => 1
  | some .stuck => 2

/-- The sensor input READ_CHANNEL reports; for an UNUSED channel it is free (log 20). -/
def State.reportedInput (s : State) (c : Chan) : Byte :=
  if (s.settings c).kind = .unused then Config.unusedSensorInput s.now c else BitVec.ofNat 8 (s.settings c).input.val

/-- READ_CHANNEL page 0. -/
def State.channel0 (s : State) (c : Chan) : List Byte :=
  [(s.settings c).kind.code, (s.channelState c).code, causeCode (s.channel c).disabled, boolByte (s.armedOn c).isSome]
    ++ fieldBytes (BitVec.ofInt 16 (s.channel c).trim) 2 ++ [BitVec.ofNat 8 (s.channel c).misses, s.reportedInput c]

/-- READ_CHANNEL page 1. -/
def Channel.page1 (ch : Channel) : List Byte :=
  fieldBytes ch.fired 2 ++ fieldBytes ch.confirmed 2 ++ fieldBytes ch.missed 2 ++ fieldBytes ch.dropped 2

/-- READ_CHANNEL page 2. -/
def Channel.page2 (ch : Channel) : List Byte := fieldBytes ch.weak 2

/-- The data of READ_CHANNEL. -/
def State.channelData (s : State) (page : Nat) (c : Chan) : BitVec 64 :=
  dataOf (if page = 0 then s.channel0 c else if page = 1 then (s.channel c).page1 else (s.channel c).page2)

/-- READ_CHANNEL (R102, R175). -/
def State.readChannel (s : State) (sender : StationNo) (target : Byte) (addr : BitVec 16) : State :=
  s.takeRequest sender target addr (s.refusal true (pageOf addr ≤ 2 && indexOf addr < 24) true false) fun s =>
    match chanOf (indexOf addr) with
    | some c => s.reply sender .done addr (s.channelData (pageOf addr) c)
    | none => s

/-- READ_CHANNEL (R102). -/
def execReadChannel (t : Nat) (sender : StationNo) (target : Byte) (addr : BitVec 16) (s : State) : Answer :=
  serviceFrame t sender (fun s => s.readChannel sender target addr) s

/-- A request whose operation code is not in the table: BUSY, or RANGE (R171). -/
def State.unknownOperation (s : State) (sender : StationNo) (target : Byte) (addr : BitVec 16) : State :=
  s.takeRequest sender target addr (s.refusal true false true false) id

/-- UNKNOWN_SVC_OPERATION (R171). -/
def execUnknownSvcOperation (t : Nat) (sender : StationNo) (target _op : Byte) (addr : BitVec 16) (s : State) : Answer :=
  serviceFrame t sender (fun s => s.unknownOperation sender target addr) s

end Sys2Proof.Machine
end

