-- ==== Sys2Proof/Machine/PortCommands.lean ====
section
/-! DEFINITION. Commands of the cue port: frames received with an error (R155), attempts and their outcomes (R148 to R151, R154), and what a sent frame does (R156, R161, R163, R164). -/

set_option Elab.async false

namespace Sys2Proof.Machine

/-! ## Frames received with an error (R155, R157) -/

/-- A change of the port, in every state but OFFLINE. -/
def State.portAct (s : State) (f : Port → Port) : State :=
  s.onlyIf (s.station.state != .offline) fun s => s.setPort (f s.port)

/-- The frame that the receive stage has taken up is discarded, and the stage waits for 12 recessive bit times, the line recessive from `since` on (R155). After an attempt this station abandoned, nothing is counted (R150; log 62). -/
def Port.discard (p : Port) (since bitTime : Time) (count : Port → Port) : Port :=
  let q := if p.rx = .listening then p else count p
  { q.waitsFrom since bitTime with quietSince := none, yieldOwed := false }

/-- A fault shows in a frame of another station whose start bit fell at `began`, on a line that has been recessive since `since`; this station's own attempt is checked bit by bit as it goes (R155; log 61). -/
def State.frameFault (s : State) (began since : Time) (found : Port → Time → Port) : State :=
  s.portAct fun p =>
    if p.attempt.isSome then p
    else if p.hearsFrom began then found p (p.recessiveFrom since)
    else p.unheard (p.recessiveFrom since) s.options.bitTime

/-- A frame that began at `began` fails its CRC test at its frame end, from which the line is quiet (R155, R146). -/
def State.crcFault (s : State) (began since : Time) : State :=
  s.frameFault began since fun p start =>
    { p.discard start s.options.bitTime (fun p => { p with crcErrors := step16 p.crcErrors }) with quietSince := some s.now }

/-- FRAME_CRC_ERROR (R155). -/
def execFrameCrcError (m : FaultMoment) (s : State) : Answer :=
  run m.time (fun s => s.crcFault m.began m.recessiveSince) s

/-- A framing fault, found at a stop bit or where a start bit is due (R155). -/
def State.framingFault (s : State) (began since : Time) : State :=
  s.frameFault began since fun p start =>
    p.discard start s.options.bitTime fun p => { p with framingErrors := step16 p.framingErrors }

/-- FRAME_FRAMING_ERROR (R155). -/
def execFrameFramingError (m : FaultMoment) (s : State) : Answer :=
  run m.time (fun s => s.framingFault m.began m.recessiveSince) s

/-- An unknown kind, or a class that does not belong to the kind, found at the end of the kind character (R155). -/
def State.kindFault (s : State) (since : Time) : State :=
  s.frameFault (s.now - frameBits 2 * s.options.bitTime) since fun p start =>
    p.discard start s.options.bitTime fun p => { p with unknownKind := step16 p.unknownKind }

/-- FRAME_UNKNOWN_KIND (R155). -/
def execFrameUnknownKind (m : LineMoment) (s : State) : Answer := run m.time (fun s => s.kindFault m.recessiveSince) s

/-! ## Beginning an attempt (R147, R148) -/

/-- The gap condition of R147 holds. -/
def State.gapHolds (s : State) (recessiveSince : Time) : Bool :=
  s.gapNeeded ≤ s.now - s.port.quietFrom recessiveSince

/-- An attempt may begin: not while a frame is being received (R148). -/
def State.mayAttempt (s : State) (recessiveSince : Time) : Bool :=
  s.station.state != .offline && s.port.mutedUntil.isNone && s.port.attempt.isNone && s.port.rx != .receiving
    && s.gapHolds recessiveSince

/-- The attempt on the head of the queue begins with its start bit, with the payload as it stands (R147, R148, R152). Whether LINE_RX follows the start bit is not known yet: since when the line has been recessive stays as it was, and after a start bit read back recessive the next gap is measured from there (R147, R150). -/
def State.beginAttempt (s : State) : State :=
  match s.port.unsent with
  | [] => s
  | e :: rest =>
    s.setPort
      { s.port with
        unsent := rest, yieldOwed := false, rx := .waiting
        attempt := some { entry := e, payload := s.fill e.frame, started := s.now } }

/-- TX_ATTEMPT_START (R148). -/
def execTxAttemptStart (t : Nat) (recessiveSince : Nat) (s : State) : Answer :=
  run t (fun s => s.onlyIf (s.mayAttempt recessiveSince) State.beginAttempt) s

/-! ## Attempts that end early (R149 to R151) -/

/-- An arbitration loss: the frame is unsent again in its place, and the station receives (R149, R152). -/
def Port.arbitrationLost (p : Port) (a : Attempt) : Port :=
  { p with
    attempt := none, unsent := returnTx a.entry p.unsent, arbitrationLosses := step16 p.arbitrationLosses
    rx := .receiving }

/-- Now lies in bit `k` of the attempt, or on either end of it (log 63). -/
def State.inBit (s : State) (a : Attempt) (k : Nat) : Bool :=
  a.started + k * s.options.bitTime ≤ s.now && s.now ≤ a.started + (k + 1) * s.options.bitTime

/-- The attempt is in one of the eight data bits of its precedence character, and sends recessive (R149; log 63). -/
def State.contending (s : State) (a : Attempt) : Bool :=
  [1, 2, 3, 4, 5, 6, 7, 8].any fun k => s.sentBit a k == .recessive && s.inBit a k

/-- An arbitration loss of the attempt in progress. -/
def State.loseArbitration (s : State) : State :=
  match s.port.attempt with
  | some a => if s.contending a then s.setPort (s.port.arbitrationLost a) else s
  | none => s

/-- ARBITRATION_LOSS (R149). -/
def execArbitrationLoss (t : Nat) (s : State) : Answer := run t State.loseArbitration s

/-- The frame after a failed attempt (R150). -/
def TxEntry.failed (e : TxEntry) : TxEntry := { e with attempts := e.attempts + 1 }

/-- The fourth failed attempt drops the frame (R150). -/
def TxEntry.isDropped (e : TxEntry) : Bool := Config.maxAttempts ≤ e.attempts

/-- The port after a failed attempt on a frame, which is dropped or keeps its place; it listens on to the end of what stands on the line (R150). DESIGN CHOICE (log 85): the moment of the TX_ERROR is the end of the bit with the mismatch, so LINE_TX is recessive from that moment on. -/
def Port.attemptFailed (p : Port) (e : TxEntry) : Port :=
  { p with
    attempt := none, failedAttempts := p.failedAttempts + 1, rx := .listening
    unsent := if e.isDropped then p.unsent else returnTx e p.unsent
    txFailures := if e.isDropped then step16 p.txFailures else p.txFailures }

/-- What the owner of a dropped frame does (R14, R163). -/
def State.dropped (s : State) (e : TxEntry) : State :=
  { s with
    attention := { s.attention with holdOff := holdOffAfter s.attention.holdOff true (some e) }
    handler := handlerAfter s.handler (some e) }

/-- The mute test (R151). -/
def State.muteTest (s : State) (kind : Nat) : State :=
  if Config.muteAttempts ≤ s.port.failedAttempts then
    (s.setPort { s.port with failedAttempts := 0, mutedUntil := some (s.now + Config.muteTime) }).raise srcLineFault kind
  else s

/-- A transmit error of the attempt in progress (R150, R151). -/
def State.transmitError (s : State) : State :=
  match s.port.attempt with
  | none => s
  | some a =>
    let e := a.entry.failed
    let s := s.setPort (s.port.attemptFailed e)
    (if e.isDropped then s.dropped e else s).muteTest e.frame.kindCode

/-- TX_ERROR (R150). -/
def execTxError (t : Nat) (s : State) : Answer := run t State.transmitError s

/-- The port resumes (R151). -/
def State.unmute (s : State) : State :=
  match s.port.mutedUntil with
  | some d => if d ≤ s.now then s.setPort { s.port with mutedUntil := none } else s
  | none => s

/-- MUTE_END (R151). -/
def execMuteEnd (t : Nat) (s : State) : Answer := run t State.unmute s

/-! ## Frames sent (R154) -/

/-- The frame end of an attempt (R144, R152). -/
def State.attemptEnd (s : State) (a : Attempt) : Time :=
  a.started + (frameBits ((charactersOfKind a.payload.kindCode).getD 0) : Int) * s.options.bitTime

/-- The port at the frame end of its own frame (R146, R147, R151). -/
def Port.sent (p : Port) (e : TxEntry) (now bitTime : Time) : Port :=
  { p.frameEnds now bitTime with
    attempt := none, failedAttempts := 0, yieldOwed := 3 ≤ e.cls || p.yieldOwed }

/-- SENT: the port, the keepalive deadline where R12 keeps one, and the hold-off flag (R12, R154, R163). -/
def State.sent (s : State) (e : TxEntry) : State :=
  let s := s.setPort (s.port.sent e s.now s.options.bitTime)
  let s := s.setStation
    { s.station with
      keepalive := if s.station.state.keepsAlive then some (s.now + s.quarter) else s.station.keepalive }
  s.setAttention { s.attention with holdOff := false }

/-- The requesters of the unsent answers bound to a source, in queue order (R161). -/
def Port.answersTo (p : Port) (x : Source) : List StationNo :=
  p.unsent.filterMap fun e => match e.frame with
    | .report (some y) (some n) => if x = y then some n else none
    | _ => none

/-- A REPORT of source `x` has been sent: the item is cleared, the unsent REPORTs bound to it are withdrawn, and the answers among them are offered again (R161, R164). -/
def State.reported (s : State) (x : Source) : State :=
  let answers := s.port.answersTo x
  answers.foldl State.answerQuery ((s.clearItem x).withdraw (TxFrame.boundTo x))

/-- What a sent frame of this station does at its frame end (R156, R161, R14). -/
def State.actSent (s : State) : TxFrame → State
  | .start piece startBar lead period => s.actStart piece startBar lead period
  | .stop _ => s.actStop
  | .release piece hold => s.actRelease piece hold
  | .report (some x) _ => s.reported x
  | .svcReply _ _ _ _ true => s.setHandler s.handler.replyGone
  | _ => s

/-- The attempt in progress reaches its frame end whole (R154). -/
def State.frameSent (s : State) : State :=
  match s.port.attempt with
  | some a => if s.attemptEnd a ≤ s.now then (s.sent a.entry).actSent a.entry.frame else s
  | none => s

/-- FRAME_SENT (R154). -/
def execFrameSent (t : Nat) (s : State) : Answer := run t State.frameSent s

/-! ## Other stations' start bits (R147) -/

/-- A start bit that falls now on a line recessive since `since` is accepted: the line has been recessive for 12 bit times, whatever stood on it before, none of them before the moment the port listens from (R155, R147; log 61). -/
def Port.acceptsEdge (p : Port) (now since bitTime : Time) : Bool := p.recessiveFrom since + quietGap bitTime ≤ now

/-- The receive stage after the leading edge of another station's frame: in a reception where the start bit is accepted; else a stage that listened on after an abandoned attempt waits, for what stood on the line has ended (R150, R155). -/
def Port.edgeStage (p : Port) (accepted : Bool) : RxStage :=
  if accepted then .receiving else if p.rx = .listening then .waiting else p.rx

/-- The leading edge of another station's frame on a line recessive since `since`: its start bit is accepted after 12 recessive bit times, else the wait begins anew (R147, R155). -/
def Port.leadingEdge (p : Port) (now since bitTime : Time) : Port :=
  if p.attempt.isSome then p
  else
    { p.dominantAt now bitTime with
      yieldOwed := false, rx := p.edgeStage (p.acceptsEdge now since bitTime) }

/-- FRAME_LEADING_EDGE (R147). -/
def execFrameLeadingEdge (m : LineMoment) (s : State) : Answer :=
  run m.time (fun s => s.portAct fun p => p.leadingEdge s.now m.recessiveSince s.options.bitTime) s

end Sys2Proof.Machine
end

