-- ==== Sys2Proof/Machine/Rail.lean ====
section
/-! DEFINITION. The rail monitor: samples (R132, R133), the band (R135 to R137) and what a band change does (R138, R139). -/

set_option Elab.async false

namespace Sys2Proof.Machine

/-- A rail voltage in reading units of 0.25 V, truncated: 255 at 63.75 V and above, 0 at 0 V and below (R132; log 60). -/
def railReading (millivolts : Int) : Nat := (clamp 0 255 (trunc millivolts 250)).toNat

/-- The history after a sample: the first one fills it, later ones push out the oldest (R132). -/
def Rail.historyAfter (r : Rail) (x : Nat) : List Nat := if r.sampled then r.history.drop 1 ++ [x] else List.replicate 8 x

/-- A sample enters the history and the accepted reading (R132, R133). -/
def Rail.record (r : Rail) (x : Nat) : Rail :=
  { r with history := r.historyAfter x, accepted := (r.historyAfter x).sum / 8, sampled := true }

/-- The runs after a sample (R136). -/
def Rail.count (r : Rail) (o : Options) (x : Nat) : Rail :=
  match r.band with
  | .normal =>
    { r with downRun := if x < o.warn then r.downRun + 1 else 0, cutRun := if x < o.cut then r.cutRun + 1 else 0, upRun := 0 }
  | .low =>
    { r with downRun := 0, cutRun := if x < o.cut then r.cutRun + 1 else 0
             upRun := if o.warn + o.hyst ≤ x then r.upRun + 1 else 0 }
  | .cut => { r with downRun := 0, cutRun := 0, upRun := if o.cut + o.hyst ≤ x then r.upRun + 1 else 0 }

/-- The band that the runs give (R136). -/
def Rail.bandAfter (r : Rail) (depth : Nat) : Band :=
  match r.band with
  | .normal => if depth ≤ r.cutRun then .cut else if depth ≤ r.downRun then .low else .normal
  | .low => if depth ≤ r.cutRun then .cut else if depth ≤ r.upRun then .normal else .low
  | .cut => if depth ≤ r.upRun then .low else .cut

/-- The band changes, and all three runs become 0 (R135). -/
def Rail.takeBand (r : Rail) (b : Band) : Rail :=
  if b = r.band then r else { r with band := b, downRun := 0, cutRun := 0, upRun := 0 }

/-- A sample is recorded and, with the judging flag set, judged (R132, R136). -/
def Rail.sample (r : Rail) (o : Options) (x : Nat) : Rail :=
  let r := r.record x
  if r.judging then
    let r := r.count o x
    r.takeBand (r.bandAfter o.depth)
  else r

/-- What a change from band `before` does, `x` the sample that made it (R137 to R139). -/
def State.bandChanged (s : State) (before : Band) (x : Nat) : State :=
  match before, s.rail.band with
  | .normal, .low => s.raise srcRailLow x
  | .normal, .cut | .low, .cut => (s.raise srcRailCut x).cutPulses.cutDampers
  | .cut, .low => s.slotFreed
  | _, _ => s

/-- The rail monitor takes a sample (R132 to R139). -/
def State.railSample (s : State) (x : Nat) : State :=
  (s.setRail (s.rail.sample s.options x)).bandChanged s.rail.band x

end Sys2Proof.Machine
end

