-- ==== Sys2Proof/Machine/RailCommands.lean ====
section
/-! DEFINITION. The command of the rail monitor (R136). -/

set_option Elab.async false

namespace Sys2Proof.Machine

/-- RAIL_SAMPLE (R132, R136). -/
def execRailSample (t : Nat) (millivolts : Int) (s : State) : Answer := run t (fun s => s.railSample (railReading millivolts)) s

end Sys2Proof.Machine
end

