-- ==== Sys2Proof/Machine/ReaderCommands.lean ====
section
/-! DEFINITION. Commands of the look-ahead reader (R48, R58). -/

set_option Elab.async false

namespace Sys2Proof.Machine

/-- READER_TAKE_ITEM (R48). -/
def execReaderTakeItem (t : Nat) (s : State) : Answer := run t State.readItem s

/-- SCAN_RECORD (R58). -/
def execScanRecord (t : Nat) (s : State) : Answer := run t State.scanRecord s

end Sys2Proof.Machine
end

