-- ==== Sys2Proof/Machine/StrikeCommands.lean ====
section
/-! DEFINITION. Commands of the planner, the drive-slot arbiter and the striker channels (R73, R80, R82, R90, R92). -/

set_option Elab.async false

namespace Sys2Proof.Machine

/-- ARM_MOMENT (R73). -/
def execArmMoment (t : Nat) (s : State) : Answer := run t State.armFirstDue s

/-- FIRE_TIME_REACHED (R80). -/
def execFireTimeReached (t : Nat) (channel : Chan) (s : State) : Answer := run t (fun s => s.fireTime channel) s

/-- CLAIM_LATE_DROP (R82). -/
def execClaimLateDrop (t : Nat) (s : State) : Answer := run t State.dropFirstLate s

/-- A pulse that is due ends at full width, and its slot is granted (R90). DESIGN CHOICE (log 51): the confirm record is placed before the slot is granted. -/
def State.pulseEnd (s : State) (c : Chan) : State :=
  match (s.channel c).pulse with
  | some p => if p.ends ≤ s.now then (s.finishPulse c false).slotFreed else s
  | none => s

/-- PULSE_END (R90). -/
def execPulseEnd (t : Nat) (channel : Chan) (s : State) : Answer := run t (fun s => s.pulseEnd channel) s

/-- RECOVERY_END (R92). -/
def execRecoveryEnd (t : Nat) (channel : Chan) (s : State) : Answer :=
  run t (fun s => s.setChannel channel ((s.channel channel).endRecovery s.now)) s

end Sys2Proof.Machine
end

