-- ==== Sys2Proof/Machine/Dispatch.lean ====
section
/-! DEFINITION. The meaning of a command: one arm per constructor of `Instr`. -/

namespace Sys2Proof.Machine

def exec (i : Instr) (s : State) : Host.Outcome State Fault Refusal :=
  match i with
  | .resetNAssert t => Sys2Proof.Machine.execResetNAssert t s
  | .resetNRelease straps => Sys2Proof.Machine.execResetNRelease straps s
  | .supplyFall t => Sys2Proof.Machine.execSupplyFall t s
  | .supplyRise straps => Sys2Proof.Machine.execSupplyRise straps s
  | .retentionLoss => Sys2Proof.Machine.execRetentionLoss s
  | .validationComplete t => Sys2Proof.Machine.execValidationComplete t s
  | .joinDeadline t => Sys2Proof.Machine.execJoinDeadline t s
  | .keepaliveDeadline t => Sys2Proof.Machine.execKeepaliveDeadline t s
  | .companyDeadline t => Sys2Proof.Machine.execCompanyDeadline t s
  | .presenceDeadline t peer => Sys2Proof.Machine.execPresenceDeadline t peer s
  | .buttonInputEdge t button asserted => Sys2Proof.Machine.execButtonInputEdge t button asserted s
  | .startInPress t => Sys2Proof.Machine.execStartInPress t s
  | .stopInPress t => Sys2Proof.Machine.execStopInPress t s
  | .buttonReleaseQualified t button => Sys2Proof.Machine.execButtonReleaseQualified t button s
  | .startFrame t sender piece startBar lead period => Sys2Proof.Machine.execStartFrame t sender piece startBar lead period s
  | .stopFrame t sender reason => Sys2Proof.Machine.execStopFrame t sender reason s
  | .releaseFrame t sender piece hold => Sys2Proof.Machine.execReleaseFrame t sender piece hold s
  | .markFrame t sender pos len bar state piece hold => Sys2Proof.Machine.execMarkFrame t sender pos len bar state piece hold s
  | .announceFrame t sender cls state piece cause => Sys2Proof.Machine.execAnnounceFrame t sender cls state piece cause s
  | .muteFrame t sender mask piece startBar stopBar onOff => Sys2Proof.Machine.execMuteFrame t sender mask piece startBar stopBar onOff s
  | .queryFrame t sender target => Sys2Proof.Machine.execQueryFrame t sender target s
  | .reportFrame t sender source level count detail queried => Sys2Proof.Machine.execReportFrame t sender source level count detail queried s
  | .svcReplyFrame t sender requester status addr data => Sys2Proof.Machine.execSvcReplyFrame t sender requester status addr data s
  | .readStore t sender target addr => Sys2Proof.Machine.execReadStore t sender target addr s
  | .programStore t sender target addr data => Sys2Proof.Machine.execProgramStore t sender target addr data s
  | .programComplete t => Sys2Proof.Machine.execProgramComplete t s
  | .eraseSector t sender target addr => Sys2Proof.Machine.execEraseSector t sender target addr s
  | .eraseComplete t => Sys2Proof.Machine.execEraseComplete t s
  | .enterService t sender target addr => Sys2Proof.Machine.execEnterService t sender target addr s
  | .leaveService t sender target addr => Sys2Proof.Machine.execLeaveService t sender target addr s
  | .partReset t sender target addr => Sys2Proof.Machine.execPartReset t sender target addr s
  | .clearHalt t sender target addr => Sys2Proof.Machine.execClearHalt t sender target addr s
  | .enableChannel t sender target addr => Sys2Proof.Machine.execEnableChannel t sender target addr s
  | .check t sender target addr n => Sys2Proof.Machine.execCheck t sender target addr n s
  | .readRoster t sender target addr => Sys2Proof.Machine.execReadRoster t sender target addr s
  | .readCounters t sender target addr => Sys2Proof.Machine.execReadCounters t sender target addr s
  | .readChannel t sender target addr => Sys2Proof.Machine.execReadChannel t sender target addr s
  | .unknownSvcOperation t sender target op addr => Sys2Proof.Machine.execUnknownSvcOperation t sender target op addr s
  | .frameCrcError m => Sys2Proof.Machine.execFrameCrcError m s
  | .frameFramingError m => Sys2Proof.Machine.execFrameFramingError m s
  | .frameUnknownKind m => Sys2Proof.Machine.execFrameUnknownKind m s
  | .txAttemptStart t recessiveSince => Sys2Proof.Machine.execTxAttemptStart t recessiveSince s
  | .arbitrationLoss t => Sys2Proof.Machine.execArbitrationLoss t s
  | .txError t => Sys2Proof.Machine.execTxError t s
  | .muteEnd t => Sys2Proof.Machine.execMuteEnd t s
  | .frameSent t => Sys2Proof.Machine.execFrameSent t s
  | .beatBoundary t => Sys2Proof.Machine.execBeatBoundary t s
  | .holdReached t => Sys2Proof.Machine.execHoldReached t s
  | .ownerDeadline t => Sys2Proof.Machine.execOwnerDeadline t s
  | .holdLimit t => Sys2Proof.Machine.execHoldLimit t s
  | .holdMarkDeadline t => Sys2Proof.Machine.execHoldMarkDeadline t s
  | .endReached t => Sys2Proof.Machine.execEndReached t s
  | .readerTakeItem t => Sys2Proof.Machine.execReaderTakeItem t s
  | .scanRecord t => Sys2Proof.Machine.execScanRecord t s
  | .armMoment t => Sys2Proof.Machine.execArmMoment t s
  | .fireTimeReached t channel => Sys2Proof.Machine.execFireTimeReached t channel s
  | .claimLateDrop t => Sys2Proof.Machine.execClaimLateDrop t s
  | .pulseEnd t channel => Sys2Proof.Machine.execPulseEnd t channel s
  | .recoveryEnd t channel => Sys2Proof.Machine.execRecoveryEnd t channel s
  | .sensorAssertion t input => Sys2Proof.Machine.execSensorAssertion t input s
  | .sensorRelease t input => Sys2Proof.Machine.execSensorRelease t input s
  | .windowOpen t => Sys2Proof.Machine.execWindowOpen t s
  | .windowClose t => Sys2Proof.Machine.execWindowClose t s
  | .stuckDeadline t input => Sys2Proof.Machine.execStuckDeadline t input s
  | .dampApply t channel => Sys2Proof.Machine.execDampApply t channel s
  | .pullInEnd t channel => Sys2Proof.Machine.execPullInEnd t channel s
  | .damperCheckDeadline t channel => Sys2Proof.Machine.execDamperCheckDeadline t channel s
  | .tachEdge t => Sys2Proof.Machine.execTachEdge t s
  | .railSample t sample => Sys2Proof.Machine.execRailSample t sample s
  | .frameLeadingEdge m => Sys2Proof.Machine.execFrameLeadingEdge m s

end Sys2Proof.Machine
end

