-- ==== Sys2Proof/Machine/Step.lean ====
section
/-! DEFINITION. One step: the command at the front of the queue comes about, on the part with the rest of the queue; an empty queue idles (log 4). -/

set_option Elab.async false

namespace Sys2Proof.Machine

/-- The command at the front of the queue, or idling (log 4, 39). -/
def step (s : State) : Host.Outcome State Fault Refusal :=
  match s.pending with
  | [] => .next s
  | c :: rest => exec c { s with pending := rest }

/-- The command a word spells by the table's bits, put at the front of the queue; the table gives no bits, so no word spells one (log 38). -/
def State.withFetchWord (s : State) (nbits w : Nat) : State :=
  match decodeTableWord nbits w with
  | some c => { s with pending := c :: s.pending }
  | none => s

end Sys2Proof.Machine
end

