-- ==== Sys2Proof/Machine/Flags.lean ====
section
/-! DEFINITION. The output pins, as they follow from State: DRV23–DRV0 (R86, R120), ROTOR_OUT (R127), FAULT_OUT (R166) and LINE_TX (R144). -/

set_option Elab.async false

namespace Sys2Proof.Machine

/-- No output is driven: the part is held in reset, or the station is in OFFLINE or SERVICE (R86). -/
def State.outputsOff (s : State) : Bool :=
  s.held || s.station.state == .offline || s.station.state == .service

/-- A channel turns its output on (R86, R120). -/
def State.channelOn (s : State) (c : Chan) : Bool :=
  match (s.settings c).kind with
  | .striker => (s.channel c).pulse.isSome
  | .damper => (s.damper c).state == .raising || (s.damper c).state == .raised
  | .unused => false

/-- The level of an output DRV (R86). -/
def State.drv (s : State) (output : Chan) : Bool :=
  !s.outputsOff && allChannels.any fun c => (s.settings c).output == output && s.channelOn c

/-- The duty on ROTOR_OUT: 0 where every output is off, and in CUT (R127, R13, R131). -/
def State.rotorOut (s : State) : Nat :=
  if s.outputsOff || s.rail.band == .cut then 0 else s.rotor.duty

/-- FAULT_OUT is asserted (R166). -/
def State.faultOut (s : State) : Bool :=
  !s.held && (s.station.state == .halted || s.rail.band == .cut)

/-- The port sends nothing: the part is held in reset, or the station is in OFFLINE (R144). -/
def State.lineSilent (s : State) : Bool := s.held || s.station.state == .offline

/-- The characters of the frame on LINE_TX; none while the pin is recessive throughout (R144). -/
def State.lineTx (s : State) : Option (List Byte) :=
  if s.lineSilent then none else s.port.attempt.map fun a => a.payload.characters s.station.own

/-- The level of LINE_TX now: recessive but for the bits of an attempt (R144). -/
def State.lineLevel (s : State) : Level :=
  if s.lineSilent then .recessive
  else match s.port.attempt with
    | some a => s.sentBit a (a.bitIndex s.now s.options.bitTime)
    | none => .recessive

end Sys2Proof.Machine
end

