-- ==== Sys2Proof/Safety.lean ====
section
/-! DEFINITION. What the statements speak of: which fields of the state a command may change, when the part is awake, what a projection, a record handed over and a clean-up come to, and the laws of the spec as invariants. -/

set_option Elab.async false

namespace Sys2Proof.Machine

/-! ## Frames -/

/-- The fields of `State`, by name. -/
inductive Field where
  | now | pending | resetNLow | supply | powered | straps | station | roster | port | clock | reader | planner | channels
  | inputs | confirm | dampers | rotor | rail | attention | handler | store | options | parts | freeCount
  deriving DecidableEq, Repr

/-- Two states agree on a field. -/
def State.agrees (s t : State) : Field → Prop
  | .now => t.now = s.now
  | .pending => t.pending = s.pending
  | .resetNLow => t.resetNLow = s.resetNLow
  | .supply => t.supply = s.supply
  | .powered => t.powered = s.powered
  | .straps => t.straps = s.straps
  | .station => t.station = s.station
  | .roster => t.roster = s.roster
  | .port => t.port = s.port
  | .clock => t.clock = s.clock
  | .reader => t.reader = s.reader
  | .planner => t.planner = s.planner
  | .channels => t.channels = s.channels
  | .inputs => t.inputs = s.inputs
  | .confirm => t.confirm = s.confirm
  | .dampers => t.dampers = s.dampers
  | .rotor => t.rotor = s.rotor
  | .rail => t.rail = s.rail
  | .attention => t.attention = s.attention
  | .handler => t.handler = s.handler
  | .store => t.store = s.store
  | .options => t.options = s.options
  | .parts => t.parts = s.parts
  | .freeCount => t.freeCount = s.freeCount

/-- From `s` to `t` nothing changes but the listed fields. -/
def State.changesOnly (fs : List Field) (s t : State) : Prop := ∀ k, k ∉ fs → s.agrees t k

/-- Every byte of the score store reads as before. -/
def State.sameBytes (s t : State) : Prop := ∀ a, t.store.read a = s.store.read a

/-! ## When the part is awake -/

/-- The handler waits to reset the part for an accepted LEAVE_SERVICE (R14). -/
def Handler.isLeaving : Handler → Bool
  | .leaving _ => true
  | _ => false

/-- The part is out of reset, and no accepted LEAVE_SERVICE waits to reset it. -/
def State.awake (s : State) : Bool := !s.held && !s.handler.isLeaving

/-- The station is not about to end a piece (R11). -/
def State.notFinishing (s : State) : Bool := !s.station.finishing

/-- The moment a command of moment `u` takes place in state `s` (log 1). -/
def State.at (s : State) (u : Nat) : Time := max s.now u

/-! ## What follows every command -/

/-- No hold of a sensor input has ended without being judged (R109). -/
def State.holdsJudged (s : State) : Bool :=
  allChannels.all fun i => match (s.input i).latch with
    | some l => l.edgeUsed || !s.isHitInput i || s.drivenOn i
    | none => true

/-- No spontaneous REPORT is left to offer (R162). -/
def State.reportsOffered (s : State) : Bool :=
  s.station.state == .offline || s.station.state == .listening || s.port.hasSpontaneous || s.attention.holdOff
    || s.firstQualifying.isNone

/-- The company deadline stands as R9 keeps it. -/
def State.companySettled (s : State) : Bool := s.station.companyDeadline == s.companyKept

/-- Nothing of what follows a command is left to do (R109, R11, R9, R162, R14). Every step leaves such a state. -/
def State.settled (s : State) : Bool :=
  s.holdsJudged && !s.finishReady && s.companySettled && s.reportsOffered && s.handler != .leaving true

/-- The state of a part between commands: out of reset, with nothing left over from the command before, and with no rejoin reference waiting to be taken (R41). -/
def State.steady (s : State) : Bool := !s.held && s.settled && !s.referenceReady

/-- The last of what follows a command: the spontaneous REPORT (R162), and the reset that LEAVE_SERVICE waits for (R14). -/
def State.reportThenLeave (s : State) : State := s.offerReport.leaveIfDone

/-! ## The part reset -/

/-- Every block stands at its reset values, the receive stage at the value of log 70 (1.1, R15, 9.3, R21, R46, R63, R81, R87, R117, R120, 7.5, 8.1, 10.2, R163, R171). -/
def State.blocksAtReset (t : State) : Prop :=
  t.now = 0
    ∧ (t.station.state = .offline ∧ t.station.own = t.straps ∧ t.station.activePiece = none ∧ t.station.returnState = none
      ∧ t.station.finishing = false ∧ t.station.joinDeadline = none ∧ t.station.companyDeadline = none
      ∧ t.station.keepalive = none ∧ t.station.startButton.state = .pressed ∧ t.station.stopButton.state = .pressed)
    ∧ (∀ n, t.peer n = none)
    ∧ (t.port.unsent = [] ∧ t.port.attempt = none ∧ t.port.quietSince = none ∧ t.port.yieldOwed = false
      ∧ t.port.failedAttempts = 0 ∧ t.port.mutedUntil = none ∧ t.port.rx = .waiting ∧ t.port.crcErrors = 0
      ∧ t.port.framingErrors = 0 ∧ t.port.unknownKind = 0 ∧ t.port.arbitrationLosses = 0 ∧ t.port.txFailures = 0
      ∧ t.port.txOverflow = 0)
    ∧ (t.clock.pb = 0 ∧ t.clock.b = 0 ∧ t.clock.pf = 0 ∧ t.clock.l = 500000 ∧ t.clock.tScore = 500000 ∧ t.clock.d = 0
      ∧ t.clock.bpb = 4 ∧ t.clock.beatInBar = 1 ∧ t.clock.bar = 1 ∧ t.clock.start = none ∧ t.clock.entryThreshold = none
      ∧ t.clock.entryBar = none ∧ t.clock.hold = none ∧ t.clock.remembered = none ∧ t.clock.lastPassed = none
      ∧ t.clock.marks = [] ∧ t.clock.selfOutliers = 0)
    ∧ (t.reader.state = .idle ∧ t.reader.cursor = none ∧ t.reader.meter = none ∧ t.reader.barMap = [] ∧ t.reader.timeline = []
      ∧ (∀ k : Fin 4, t.reader.rolls[k] = none) ∧ t.reader.mute = none ∧ t.reader.scan = none)
    ∧ (t.planner.queue = [] ∧ t.planner.claims = [])
    ∧ (∀ c, t.channel c = { disabled := none, pulse := none, recoveryEnd := none, trim := 0, misses := 0, fired := 0, confirmed := 0, missed := 0, dropped := 0, weak := 0 })
    ∧ (∀ i, t.input i = { asserted := false, run := 0, latch := none, stuck := false, stuckDeadline := none, quietUntil := none })
    ∧ t.confirm = []
    ∧ (∀ c, t.damper c = { targetRaised := false, state := .lowered, pullInEnd := none, check := none })
    ∧ t.rotor = { target := 0, pendingTarget := none, duty := 0, window := 0, zeroBeats := 0 }
    ∧ (t.rail.band = .cut ∧ t.rail.judging = false ∧ t.rail.downRun = 0 ∧ t.rail.cutRun = 0 ∧ t.rail.upRun = 0
      ∧ t.rail.sampled = false)
    ∧ ((∀ x, t.item x = none) ∧ t.attention.holdOff = false)
    ∧ t.handler = .unoccupied

/-- From `s` to `t` the part has been reset; the queue of commands, the settings in force and the store, but for an operation that was running, stand as they were (R1, R167). -/
def State.wasReset (s t : State) : Prop :=
  t.blocksAtReset ∧ t.pending = s.pending ∧ t.options = s.options ∧ t.parts = s.parts
    ∧ (s.handler = .unoccupied ∨ s.handler.isLeaving = true → t.store = s.store)

/-- The commands that move the reset pin, the supply or the straps. -/
def movesPins : Instr → Bool
  | .resetNAssert _ | .resetNRelease _ | .supplyFall _ | .supplyRise _ | .retentionLoss => true
  | _ => false

/-! ## Service requests, as commands -/

/-- The moment of a service request of station `n`. -/
def serviceRequestOf (n : StationNo) : Instr → Option Nat
  | .readStore t m _ _ | .programStore t m _ _ _ | .eraseSector t m _ _ | .enterService t m _ _ | .leaveService t m _ _
  | .partReset t m _ _ | .clearHalt t m _ _ | .enableChannel t m _ _ | .check t m _ _ _ | .readRoster t m _ _
  | .readCounters t m _ _ | .readChannel t m _ _ | .unknownSvcOperation t m _ _ _ => if m = n then some t else none
  | _ => none

/-- The target of a service request. -/
def serviceTarget : Instr → Option Byte
  | .readStore _ _ g _ | .programStore _ _ g _ _ | .eraseSector _ _ g _ | .enterService _ _ g _ | .leaveService _ _ g _
  | .partReset _ _ g _ | .clearHalt _ _ g _ | .enableChannel _ _ g _ | .check _ _ g _ _ | .readRoster _ _ g _
  | .readCounters _ _ g _ | .readChannel _ _ g _ | .unknownSvcOperation _ _ g _ _ => some g
  | _ => none

/-- The address field of a service request. -/
def serviceAddress : Instr → Option (BitVec 16)
  | .readStore _ _ _ a | .programStore _ _ _ a _ | .eraseSector _ _ _ a | .enterService _ _ _ a | .leaveService _ _ _ a
  | .partReset _ _ _ a | .clearHalt _ _ _ a | .enableChannel _ _ _ a | .check _ _ _ a _ | .readRoster _ _ _ a
  | .readCounters _ _ _ a | .readChannel _ _ _ a | .unknownSvcOperation _ _ _ _ a => some a
  | _ => none

/-! ## Claims of one moment -/

/-- No strike's fire time has come and no DAMP event is due: nothing joins a slot that falls free now (R80). -/
def State.nothingJoins (s : State) : Prop :=
  (∀ e ∈ s.planner.queue, ∀ c written effective, e.phase = .armed c written effective → s.now < effective)
    ∧ ∀ c, s.firstDamp c = none

/-! ## Frames of peers -/

/-- The roster entry of a peer after a valid frame at local time `now` (R15). -/
def refreshed (o : Options) (now : Time) (n : StationNo) : Option RosterEntry → RosterEntry
  | some e => { e with presence := now + o.presenceTimeout, frames := step16 e.frames }
  | none =>
    { cls := o.pinOf n, pinned := (o.pinOf n).isSome, announced := none, piece := .unknown, presence := now + o.presenceTimeout,
      lastMark := none, frames := 1, outliers := 0, unusable := 0 }

/-- The port after the frame end of a valid frame of another station: the line is quiet from then on, no yield is owed but one that a frame sent at this very moment has left (log 77), and the receive stage waits for a start bit after 12 recessive bit times, of which the frame's last stop bit is the first (R146, R147, R155). -/
def State.portHeard (s : State) (u : Nat) : Port :=
  { s.port with
    quietSince := some (s.at u), rx := .waiting
    yieldOwed := decide (s.port.quietSince = some (s.at u)) && s.port.yieldOwed
    acceptFrom := s.at u + 11 * s.options.bitTime }

/-- The part after the frame end of a valid frame of peer `n`, before the frame acts: the port has heard it, and the roster holds the peer (R15). -/
def State.heard (s : State) (u : Nat) (n : StationNo) : State :=
  { s with
    now := s.at u
    port := s.portHeard u
    roster := s.roster.set n (some (refreshed s.options (s.at u) n (s.peer n))) }

/-- The receive stage takes up what ends at the moment of `u` after `duration`: it is in a reception, its line had been recessive for 12 bit times where that began (R155; log 61), or another frame has ended at this very moment (R164; log 77). -/
def State.takesUp (s : State) (u : Nat) (duration : Time) : Prop :=
  s.port.rx ≠ .waiting ∨ s.port.acceptFrom ≤ s.at u - duration ∨ s.port.quietSince = some (s.at u)

/-- A frame of kind `kind` that ends at the moment of `u` is a peer's, and the part receives it (R2, R10, R155, R156). -/
def State.hears (s : State) (u : Nat) (n : StationNo) (kind : Nat) : Prop :=
  s.steady = true ∧ s.station.state ≠ .offline ∧ n ≠ s.station.own ∧ s.takesUp u (frameTime kind s.options.bitTime)

/-- The moment, the sender and the kind code of a command that is a valid frame of another station (09, the frame table). -/
def frameOf : Instr → Option (Nat × StationNo × Nat)
  | .announceFrame t n _ _ _ _ => some (t, n, 0x1)
  | .markFrame t n _ _ _ _ _ _ => some (t, n, 0x2)
  | .startFrame t n _ _ _ _ => some (t, n, 0x3)
  | .stopFrame t n _ => some (t, n, 0x4)
  | .releaseFrame t n _ _ => some (t, n, 0x5)
  | .muteFrame t n _ _ _ _ _ => some (t, n, 0x6)
  | .reportFrame t n _ _ _ _ _ => some (t, n, 0x7)
  | .queryFrame t n _ => some (t, n, 0x8)
  | .readStore t n _ _ | .programStore t n _ _ _ | .eraseSector t n _ _ | .enterService t n _ _ | .leaveService t n _ _
  | .partReset t n _ _ | .clearHalt t n _ _ | .enableChannel t n _ _ | .check t n _ _ _ | .readRoster t n _ _
  | .readCounters t n _ _ | .readChannel t n _ _ | .unknownSvcOperation t n _ _ _ => some (t, n, 0x9)
  | .svcReplyFrame t n _ _ _ _ => some (t, n, 0xA)
  | _ => none

/-- The part after a service request of peer `n` that it answers and that changes nothing else (R171). -/
def State.replied (s : State) (u : Nat) (n : StationNo) (status : SvcStatus) (addr : BitVec 16) (data : BitVec 64) : State :=
  ((s.heard u n).offer (.svcReply n status addr data false)).reportThenLeave

/-! ## Items of the reader -/

/-- Item `i` is the reader's next, it lies within the horizon at the moment of `u`, and the item before it is done (R48). -/
def State.reads (s : State) (u : Nat) (i : Item) : Prop :=
  s.steady = true ∧ s.reader.state = .reading ∧ s.hasPosition = true ∧ s.reader.busyUntil ≤ s.at u
    ∧ s.reader.nextItem = some i ∧ i.pos ≤ (s.advance u).position + s.options.lookAhead * 7680

/-- The reader after it has taken the record at cursor `c`, before the delivery: the bar lines up to it are crossed, 2 µs pass before the next item, and the cursor moves on (R47, R48, R52). -/
def State.pastRecord (s : State) (u : Nat) (c : Cursor) : Reader :=
  { s.reader.crossTo c.position with busyUntil := s.at u + 2, cursor := some (s.nextCursor c) }

/-- The scan `sc` runs and may take its next record at the moment of `u` (R46, R58). -/
def State.scans (s : State) (u : Nat) (sc : Scan) : Prop :=
  s.steady = true ∧ s.station.state.playingState = true ∧ s.reader.state = .scanning ∧ s.reader.busyUntil ≤ s.at u
    ∧ s.reader.scan = some sc

/-- The strike of velocity `v` for `voice` at `p`, projected by the clock and the figures of its preferred channel (R63, R70). -/
def State.plannedStrike (s : State) (p : Pos) (voice v : Nat) (preferred : Chan) (other : Option Chan) (roll : Bool) :
    StrikeEntry :=
  let f := s.figures preferred v
  { pos := p, voice := voice, velocity := v, preferred := preferred, other := other, roll := roll, phase := .planned false
    projected := some (s.clock.timeOf p - f.flight), width := f.width, flight := f.flight, weak := f.weak }

/-- The strike `e` can join the strike queue and is not to be armed yet (R63, R64, R71, R73). -/
def State.joinsQueue (s : State) (u : Nat) (e : StrikeEntry) : Prop :=
  s.planner.queue.length < 64 ∧ (∀ x ∈ s.planner.queue, ¬(x.pos = e.pos ∧ x.voice = e.voice)) ∧ s.projects e.pos = true
    ∧ ∀ f, e.projected = some f → s.at u < f - 2000

/-- From `s` to `t` the hold `h` has been left at the moment of `u`, back to the return state, with the clock of R40; in REJOINING no MARK is left unsent (R26, R32, R40). -/
def State.leftHold (s t : State) (u : Nat) (h : HoldState) : Prop :=
  t.station.state = s.station.returnState.getD .playing ∧ t.station.returnState = none
    ∧ t.station.activePiece = s.station.activePiece
    ∧ (s.station.returnState = some .rejoining → t.port.hasUnsent TxFrame.isMark = false)
    ∧ t.clock = { s.clock with
        b := s.at u - rhu ((h.pos - s.clock.pb) * s.clock.l) 7680, pf := h.pos, marks := [], hold := none, selfOutliers := 0
        lastPassed := some h.number, remembered := s.clock.remembered.filter fun r => h.number < r }

/-- A station that finishes has ended its piece: READY, with no active piece, the reader idle and the rotor at rest (R11, R131). -/
def State.finished (t : State) : Prop :=
  t.station.state = .ready ∧ t.station.activePiece = none ∧ t.station.finishing = false ∧ t.reader.state = .idle
    ∧ t.rotor = { target := 0, pendingTarget := none, duty := 0, window := 0, zeroBeats := 0 }

/-- A reader that has dropped its cursor, meter, bar map and scan and emptied its timeline list and roll table; the mute window stays (R46). -/
def Reader.dropped (r : Reader) (st : ReaderState) : Reader :=
  { state := st, busyUntil := r.busyUntil, cursor := none, meter := none, barMap := [], timeline := [],
    rolls := Vector.replicate 4 none, mute := r.mute, scan := none }

/-- A new scan of the part of `k` records at `a`: at its first record, the meter at bar 1 at position 0 with default_bpb, nothing noted (R47, R58). -/
def State.scanOf (s : State) (a k : Nat) (target : ScanTarget) : Scan :=
  let first : Cursor := { index := 0, pos := if k = 0 then 0 else 16 * recordDelta s.store a }
  { target := target, cursor := first, groupStart := first
    meter := { barStart := 0, bpb := s.options.defaultBpb, bar := 1, change := none }, lineUntested := true
    tempo := none, lastHold := none, dampers := Vector.replicate 24 none, rotor := none, held := [] }

/-- From `s` to `t` the reader has dropped what it held and scans the part of `k` records at `a` (R46, R58). -/
def State.scanBegun (s t : State) (a k : Nat) (target : ScanTarget) : Prop :=
  t.reader = { s.reader.dropped .scanning with scan := some (s.scanOf a k target), busyUntil := t.reader.busyUntil }
    ∧ t.reader.busyUntil ≤ t.now

/-- The entry with the offset of its last mark, if it has one, used (R30). -/
def RosterEntry.offsetUsed (e : RosterEntry) : RosterEntry :=
  { e with lastMark := e.lastMark.map fun m : LastMark => { m with consumed := true } }

/-- A station in REJOINING with its piece and no position yet: the strike queue and its claims gone, the reader waiting for the reference with its lists empty, no unsent MARK (R6, R21, R26, R32, R46, R65). What stands in the roster is the caller's. -/
def State.rejoinsUnset (s r : State) (piece : Option Piece) : Prop :=
  r.now = s.now ∧ r.station.state = .rejoining ∧ r.station.activePiece = piece ∧ r.station.returnState = none
    ∧ r.clock.isSet = false ∧ r.clock.selfOutliers = 0 ∧ r.clock.start = none ∧ r.clock.entryThreshold = none
    ∧ r.clock.entryBar = none ∧ r.clock.hold = none ∧ r.clock.remembered = s.clock.remembered
    ∧ r.clock.lastPassed = s.clock.lastPassed
    ∧ r.planner = { queue := [], claims := s.planner.claims.filter fun a => a.kind = .damper }
    ∧ r.reader = s.reader.dropped .scanPending ∧ r.port.hasUnsent TxFrame.isMark = false

/-- No offset in the roster is left to use (R33, R40, R42). -/
def State.offsetsConsumed (t : State) : Prop :=
  ∀ n e m o, t.peer n = some e → e.lastMark = some m → m.offset = some o → m.consumed = true

/-- The beat of the last TEMPO event at or below `p`, in list order (R25). -/
def State.lastTempo (s : State) (p : Pos) : Option Nat :=
  (s.reader.timeline.filterMap fun e => match e.kind with
    | .tempo us => if e.pos ≤ p then some us else none
    | _ => none).getLast?

/-- Beats per bar and number of the last BAR event at or below `p`, in list order (R24). -/
def State.lastBar (s : State) (p : Pos) : Option (Nat × Nat) :=
  (s.reader.timeline.filterMap fun e => match e.kind with
    | .bar bpb number => if e.pos ≤ p then some (bpb, number) else none
    | _ => none).getLast?

/-- The meter of a clock after the BAR events of a boundary at `p`, from the beats per bar, the bar number and the beat that it had (R24). -/
def State.metersAs (s t : State) (p : Pos) (bpb bar beat : Nat) : Prop :=
  match s.lastBar p with
  | some (b, n) => t.clock.bpb = clampNat 1 15 b ∧ t.clock.bar = n ∧ t.clock.beatInBar = 1
  | none => t.clock.bpb = bpb ∧ t.clock.bar = bar ∧ t.clock.beatInBar = beat

/-- T_score after the TEMPO events of a boundary at `p`, from the one it had (R25). -/
def State.tempoAs (s t : State) (p : Pos) (tScore : Int) : Prop :=
  t.clock.tScore = (match s.lastTempo p with
    | some us => clamp 200000 2000000 us
    | none => tScore)

/-- The peer's last mark is fresh at a boundary at the moment of `u`: it holds an offset not consumed, it is no older than mark_age beats of length `l`, and the peer's weight is 1 at least (R30). -/
def State.isFresh (s : State) (u : Nat) (l : Int) (n : StationNo) (e : RosterEntry) : Bool :=
  match e.lastMark with
  | some m => m.offset.isSome && !m.consumed && decide (s.at u - m.received ≤ s.options.markAge * l)
      && decide (1 ≤ followWeight s.options n e)
  | none => false

/-- The time at which a channel with no armed strike is free: the present moment, the end of its recovery, or the end of its pulse and the recovery for its width (R74, R92). -/
def State.freeAt (s : State) (u : Nat) (c : Chan) : Time :=
  match (s.channel c).pulse with
  | some p => p.ends + ((s.settings c).recBase + trunc (p.width * (s.settings c).recRatio) 16)
  | none => match (s.channel c).recoveryEnd with
    | some r => max r (s.at u)
    | none => s.at u

/-- The free time of a channel: where it holds an armed strike, no earlier than the end of that strike's pulse and recovery (R74). -/
def State.freeWithArmed (s : State) (u : Nat) (c : Chan) : Time :=
  match s.armedOn c with
  | some e => match e.phase with
    | .armed _ _ effective => max (s.freeAt u c)
        (effective + e.width + ((s.settings c).recBase + trunc (e.width * (s.settings c).recRatio) 16))
    | .planned _ => s.freeAt u c
  | none => s.freeAt u c

/-- The confirm records of the pulses in progress, each ended as cut, in channel order (R91, R94, R107). -/
def State.cutRecords (s : State) : List ConfirmRecord :=
  allChannels.filterMap fun c => (s.channel c).pulse.map fun p =>
    ConfirmRecord.mk c (s.settings c).input (p.start + p.flight) (p.start + p.flight - s.options.winEarly)
      (p.start + p.flight + s.options.winLate) false p.weak p.late true p.roll p.band

/-- The part after record `r`, which has left the list, is resolved MISSED: the miss is counted on its channel and raises MISS, and the third in a row disables the channel with cause MISSES and raises CHANNEL_MISSES (R97, R112). -/
def State.recordMissed (s : State) (r : ConfirmRecord) : State :=
  let ch := s.channel r.channel
  let t := (s.setChannel r.channel { ch with
    missed := step16 ch.missed, misses := if ch.misses < 3 then ch.misses + 1 else ch.misses
    disabled := if ch.misses = 2 then some .misses else ch.disabled }).raise srcMiss r.channel.val
  if ch.misses = 2 then t.raise srcChannelMisses r.channel.val else t

/-- The part after record `r`, which has left the list, is resolved CONFIRMED, by an edge with its impact or by a level: the input is quiet for 30 ms at least, and an edge teaches the trim where the record is not weak, late, cut or a roll's and its strike fired in NORMAL (R109, R111, R116). -/
def State.recordConfirmed (s : State) (r : ConfirmRecord) (impact : Option Time) : State :=
  let ch := s.channel r.channel
  let x := s.input r.input
  (s.setChannel r.channel { ch with
    confirmed := step16 ch.confirmed, misses := 0
    trim := match impact with
      | some m => if r.weak = false ∧ r.late = false ∧ r.cut = false ∧ r.roll = false ∧ r.band = .normal then
          clamp (-2000) 2000 (ch.trim + rhaz (m - r.expected) 8) else ch.trim
      | none => ch.trim }).setInput r.input { x with quietUntil := some (laterOf x.quietUntil (s.now + 30000)) }

/-- The part after a record whose open time has come when it is placed: an unused edge held at its input confirms it and is used up, the held level of an EDGE_LEVEL input that is not stuck confirms it, and with neither it stands open in the list, or is MISSED if its close time has come too (R104, R107, R108, R112). -/
def State.recordOpened (s : State) (r : ConfirmRecord) : State :=
  let x := s.input r.input
  let unmatched := if r.closes ≤ s.now then s.recordMissed r else s.setConfirm (insertConfirm { r with isOpen := true } s.confirm)
  match x.latch with
  | some l =>
    if l.edgeUsed = false then
      (s.setInput r.input { x with latch := if s.inputMode r.input = .edge then none else some { l with edgeUsed := true } }).recordConfirmed r
        (some l.impact)
    else if s.inputMode r.input = .edgeLevel ∧ x.stuck = false then s.recordConfirmed r none
    else unmatched
  | none => unmatched

/-- The part after record `r` has been placed: with 32 records in the list the first of the 33 is MISSED, the newcomer itself if it stands first; otherwise it takes its place, its window opening at once where its open time has come (R107, R113). -/
def State.recordPlaced (s : State) (r : ConfirmRecord) : State :=
  let place := fun t : State => if r.opens ≤ t.now then t.recordOpened r else t.setConfirm (insertConfirm r t.confirm)
  match s.confirm with
  | [] => place s
  | x :: xs =>
    if xs.length < 31 then place s
    else if r.before x = true then s.recordMissed r
    else place ((s.setConfirm xs).recordMissed x)

/-- The confirm record of a pulse that has ended on channel `c` (R91, R107). -/
def State.recordAt (s : State) (c : Chan) (p : Pulse) (cut : Bool) : ConfirmRecord :=
  ConfirmRecord.mk c (s.settings c).input (p.start + p.flight) (p.start + p.flight - s.options.winEarly)
    (p.start + p.flight + s.options.winLate) false p.weak p.late cut p.roll p.band

/-- The part after every pulse in progress has been ended early: each channel recovers for the width it drove, and the records are placed in channel order, where the list is full or a window has opened as well (R91 to R94, R107, R113; log 66). -/
def State.pulsesCut (s : State) : State :=
  allChannels.foldl (fun t c => match (s.channel c).pulse with
    | none => t
    | some p =>
      let rest := (s.settings c).recBase + trunc ((s.now - p.start) * (s.settings c).recRatio) 16
      (t.setChannel c { t.channel c with
        pulse := none, recoveryEnd := if rest = 0 then none else some (s.now + rest) }).recordPlaced (s.recordAt c p true)) s

/-- In `t` the confirm records have been handed over and resolved as in `q`: the list, the channels, the items of a miss and the quiet-until times are those of `q`, and so is each latch with no edge left to judge. -/
def State.recordsAs (t q : State) : Prop :=
  t.confirm = q.confirm ∧ (∀ c, t.channel c = q.channel c)
    ∧ t.item srcMiss = q.item srcMiss ∧ t.item srcChannelMisses = q.item srcChannelMisses
    ∧ (∀ i, (t.input i).quietUntil = (q.input i).quietUntil)
    ∧ ∀ i, (∀ l, (q.input i).latch = some l → l.edgeUsed = true) → (t.input i).latch = (q.input i).latch

/-- The STRAY item after an assertion at input `i` has been judged unmatched at the moment of `u`: raised, or as it was up to the quiet-until time (R109). -/
def State.strayAfter (s : State) (u : Nat) (i : Chan) (impact : Time) : Option AttentionItem :=
  match (s.input i).quietUntil with
  | some q => if impact ≤ q then s.item srcStray else some (raisedItem (s.item srcStray) i.val (s.at u))
  | none => some (raisedItem (s.item srcStray) i.val (s.at u))

/-- From `s` to `t` every strike claim has gone with the strike queue, and every claim of a damper that waited to be raised is withdrawn (R65, R122, R126). -/
def State.claimsWithdrawn (s t : State) : Prop :=
  ∀ a ∈ t.planner.claims, a ∈ s.planner.claims ∧ a.kind = .damper
    ∧ ¬((s.settings a.channel).kind = .damper ∧ (s.damper a.channel).targetRaised = true
      ∧ ((s.damper a.channel).state = .lowered ∨ (s.damper a.channel).state = .lowering))

/-- From `s` to `t` every confirm record is resolved ABANDONED: the quiet-until time of its input moves to its close time at least, and it counts, teaches and raises nothing (R114). -/
def State.recordsAbandoned (s t : State) : Prop :=
  t.confirm = [] ∧ t.channels = s.channels ∧ t.item srcMiss = s.item srcMiss
    ∧ ∀ i, (t.input i).quietUntil = (s.confirm.filter fun r => r.input = i).foldl (fun q r => some (laterOf q r.closes))
        (s.input i).quietUntil

/-- The fire time of an entry by the clock of `t` and the figures of its preferred channel in `s` (R70). -/
def State.fireBy (s t : State) (e : StrikeEntry) : Time := t.clock.timeOf e.pos - (s.figures e.preferred e.velocity).flight

/-- An entry projected by the clock of `t` and the figures of `s` (R69, R70). -/
def State.projectedBy (s t : State) (e : StrikeEntry) : StrikeEntry :=
  { e with
    projected := some (s.fireBy t e), width := (s.figures e.preferred e.velocity).width
    flight := (s.figures e.preferred e.velocity).flight, weak := (s.figures e.preferred e.velocity).weak }

/-- An entry armed on its preferred channel for the fire time it is projected to (R76). -/
def State.armedBy (s t : State) (e : StrikeEntry) : StrikeEntry :=
  { s.projectedBy t e with phase := .armed e.preferred (s.fireBy t e) (s.fireBy t e) }

/-- The preferred channel of an entry is idle in `s`, no claim waits for it, and no other PLANNED entry wants it. -/
def State.preferredIsFree (s : State) (e : StrikeEntry) : Prop :=
  (s.channel e.preferred).disabled = none ∧ (s.channel e.preferred).pulse = none
    ∧ (s.channel e.preferred).recoveryEnd = none ∧ s.armedOn e.preferred = none ∧ s.claimWaits e.preferred = false
    ∧ ∀ y ∈ s.planner.queue, y.isArmed = false → y.sameKey e = false → e.preferred ∉ y.candidates

/-- From `s` to `t` the planner has projected its entries anew, by the clock of `t` and the figures of `s`, and armed those that were due, in queue order (R70, R71, R73): no entry is left due; every entry PLANNED before and now has the projected fire time of its position, where `t` projects it, and unless it is deferred its width, flight and weak flag; an entry not due, or in REJOINING, stands so in the queue; and an entry that is due, its fire time ahead, stands armed on its preferred channel where that is free for it. -/
def State.reprojected (s t : State) : Prop :=
  (∀ e ∈ t.planner.queue, t.armDue e = false)
    ∧ (∀ e ∈ t.planner.queue, e.isArmed = false → t.projects e.pos = true →
        (∃ x ∈ s.planner.queue, x.sameKey e = true ∧ x.isArmed = false) →
        e.projected = some (s.fireBy t e) ∧ (e.deferred = false → e = s.projectedBy t e))
    ∧ (∀ x ∈ s.planner.queue, x.phase = .planned false → t.projects x.pos = true →
        ¬(s.station.state = .countin ∧ t.station.state = .rejoining) →
        (t.allowsArming = true → t.now < s.fireBy t x - 2000) → s.projectedBy t x ∈ t.planner.queue)
    ∧ ∀ x ∈ s.planner.queue, x.phase = .planned false → t.allowsArming = true → t.projects x.pos = true →
        s.fireBy t x - 2000 ≤ t.now → t.now < s.fireBy t x → 0 ≤ s.options.lateTol → s.preferredIsFree x →
        s.armedBy t x ∈ t.planner.queue

/-- From `s` to `t` the DAMP events have been projected by the clock of `t` and those whose apply moment has come have applied: none is left due, and the last due one of a damper sets its target, unless the piece of a finishing station has ended by then (R11, R121, R122). -/
def State.dampsApplied (s t : State) : Prop :=
  ∀ c, (s.settings c).kind = .damper →
    t.firstDamp c = none
      ∧ ((s.station.finishing = true → t.station.state ≠ .ready) →
          (t.damper c).targetRaised
            = (((s.reader.timeline.filterMap (t.dampDue c)).getLast?.map fun d => d.2).getD (s.damper c).targetRaised))

/-- From `s` to `t` a piece has ended with the clean-up of R7; pulses in progress run on. -/
def State.cleanedUp (s t : State) : Prop :=
  t.station = { s.station with state := .ready, activePiece := none, returnState := none, finishing := false, companyDeadline := none }
    ∧ (t.planner.queue = [] ∧ s.claimsWithdrawn t) ∧ s.recordsAbandoned t ∧ t.port.hasUnsent TxFrame.isMark = false
    ∧ (t.reader.state = .idle ∧ t.reader.timeline = [] ∧ t.reader.rolls = Vector.replicate 4 none ∧ t.reader.scan = none
      ∧ t.reader.mute = none)
    ∧ t.clock = { s.clock with start := none, entryThreshold := none, entryBar := none, hold := none, remembered := none }
    ∧ (∀ c, (s.settings c).kind = .damper → (t.damper c).targetRaised = false)
    ∧ t.rotor = { target := 0, pendingTarget := none, duty := 0, window := 0, zeroBeats := 0 }

/-- In COUNTIN, PLAYING and HOLDING the clock has a position, and in REJOINING the reference is taken as soon as it can be (R21, R41). -/
def State.referenceTaken (s : State) : Prop :=
  (s.station.state = .countin ∨ s.station.state = .playing ∨ s.station.state = .holding → s.clock.isSet = true)
    ∧ s.referenceReady = false

/-! ## Laws of the spec, as invariants -/

/-- The store is in its canonical form. -/
def State.storeCanonical (s : State) : Prop := s.store.wf = true

/-- The learned and computed figures lie in their ranges (R31, R101, R116, 2.1). -/
def State.figuresInRange (s : State) : Prop :=
  (∀ c, -2000 ≤ (s.channel c).trim ∧ (s.channel c).trim ≤ 2000 ∧ (s.channel c).misses ≤ 3)
    ∧ (-3277 ≤ s.clock.d ∧ s.clock.d ≤ 3277) ∧ (180000 ≤ s.clock.l ∧ s.clock.l ≤ 2200000)
    ∧ 200000 ≤ s.clock.tScore ∧ s.clock.tScore ≤ 2000000

/-- The strike queue holds at most 64 entries, in order of position and then voice, none twice (R63). -/
def State.strikesOrdered (s : State) : Prop :=
  s.planner.queue.length ≤ Config.strikeQueueDepth ∧ s.planner.queue.Pairwise fun a b => a.before b = true

/-- The confirm list holds at most 32 records, in list order (6.1). -/
def State.confirmOrdered (s : State) : Prop :=
  s.confirm.length ≤ Config.confirmDepth ∧ s.confirm.Pairwise fun a b => b.before a = false

/-- An entry's class is that of a MARK, if it is one. -/
def TxEntry.markClass (e : TxEntry) : Prop := e.frame.isMark = true → e.cls = 2

/-- The transmit queue holds at most 8 frames, the unsent ones in order of class, never two unsent MARKs (R152, R153). -/
def Port.ordered (p : Port) : Prop :=
  p.length ≤ Config.txDepth ∧ (p.unsent.Pairwise fun a b => a.cls ≤ b.cls)
    ∧ (p.unsent.filter fun e => e.frame.isMark).length ≤ 1
    ∧ (∀ e ∈ p.unsent, e.markClass) ∧ ∀ a, p.attempt = some a → a.entry.markClass

def State.transmitOrdered (s : State) : Prop := s.port.ordered

/-- Every pending item's count lies within 1 … 255 (R160). -/
def State.itemsCounted (s : State) : Prop := ∀ x it, s.item x = some it → 1 ≤ it.count ∧ it.count ≤ 255

/-- Pf and the hold position lie before the end of the beat at Pb (R22, R40, R42). -/
def State.positionLawful (s : State) : Prop :=
  s.clock.pf ≤ s.clock.pb + 7679
    ∧ ∀ h, s.station.state = .holding → s.clock.hold = some h → h.pos ≤ s.clock.pb + 7679

/-- The claimant list is ordered by due time, then channel, with at most one claim of a channel, so that it holds no more than 24 (R81). -/
def State.claimsOrdered (s : State) : Prop :=
  s.planner.claims.Pairwise fun a b =>
    (a.due < b.due ∨ (a.due = b.due ∧ a.channel < b.channel)) ∧ a.channel ≠ b.channel

/-- The timeline list holds at most 16 events, in order of position (R51). -/
def State.timelineOrdered (s : State) : Prop :=
  s.reader.timeline.length ≤ 16 ∧ s.reader.timeline.Pairwise fun a b => a.pos ≤ b.pos

/-- A channel that drives does not recover, and its pulse has a width from min_w to max_w; no two armed strikes share a channel (R88, R89). What these rest on goes with them: an armed strike has such a width, and fires no earlier than its channel is free (R76); a strike's claim is that of a strike armed on the channel, whose fire time has come (R80). -/
def State.strikersLawful (s : State) : Prop :=
  (∀ c, 0 ≤ (s.settings c).recBase ∧ 0 ≤ (s.settings c).recRatio ∧ (s.settings c).minW ≤ (s.settings c).maxW)
    ∧ (∀ c p, (s.channel c).pulse = some p →
        (s.channel c).recoveryEnd = none ∧ (s.settings c).minW ≤ p.width ∧ p.width ≤ (s.settings c).maxW
          ∧ p.ends = p.start + p.width)
    ∧ (s.planner.queue.Pairwise fun a b => ∀ c, ¬(a.armedOn c = true ∧ b.armedOn c = true))
    ∧ (∀ e ∈ s.planner.queue, ∀ c written effective, e.phase = .armed c written effective →
        (s.settings c).minW ≤ e.width ∧ e.width ≤ (s.settings c).maxW
          ∧ (∀ p, (s.channel c).pulse = some p →
              p.ends + ((s.settings c).recBase + trunc (p.width * (s.settings c).recRatio) 16) ≤ effective)
          ∧ ∀ r, (s.channel c).recoveryEnd = some r → r ≤ effective)
    ∧ ∀ a ∈ s.planner.claims, a.kind = .strike →
        ∃ e ∈ s.planner.queue, ∃ effective, e.phase = .armed a.channel a.due effective ∧ effective ≤ s.now

/-- The scan meter stands on a beat start, at or below the next record, its next line a beat or more ahead; no BAR or TEMPO record is held back (R52, R58, R60). -/
def Scan.lawful (sc : Scan) : Prop :=
  sc.meter.barStart % 7680 = 0 ∧ sc.meter.barStart ≤ sc.cursor.position ∧ 1 ≤ sc.meter.bpb
    ∧ (∀ ch, sc.meter.change = some ch → ch.pos % 7680 = 0 ∧ sc.meter.barStart < ch.pos ∧ 1 ≤ ch.bpb)
    ∧ ∀ k ∈ sc.held, k.ofMeter = false

/-- A running scan is lawful, and so is the meter that a scan starts with (R58). -/
def State.scanLawful (s : State) : Prop := 1 ≤ s.options.defaultBpb ∧ ∀ sc, s.reader.scan = some sc → sc.lawful

/-- The roster holds no entry for the station's own number (R15). -/
def State.rosterExcludesOwn (s : State) : Prop := s.peer s.station.own = none

/-- An occupied service handler is that of a station in SERVICE; an operation on the store that is running lies in the store, below the protect start sector in force (R14, R170, R172, R173). -/
def State.operationAllowed (s : State) : Prop :=
  match s.handler with
  | .unoccupied => True
  | .programming addr _ _ _ =>
    s.station.state = .service ∧ addr % 8 = 0 ∧ addr < Memory.size ∧ sectorOf addr < s.options.protectStart
  | .erasing addr _ _ => s.station.state = .service ∧ addr < Memory.size ∧ sectorOf addr < s.options.protectStart
  | .leaving _ => s.station.state = .service

/-- The drive-slot law (R79) with the cut (R138): the slots in use never exceed drive_slots, none is in use in CUT or in OFFLINE, and only DAMPER channels raise, claim or have a raised target. -/
def State.slotsLawful (s : State) : Prop :=
  s.slotsInUse ≤ s.options.driveSlots
    ∧ (s.rail.band = .cut → s.slotsInUse = 0)
    ∧ (s.station.state = .offline → s.slotsInUse = 0 ∧ s.planner.queue = [] ∧ s.planner.claims = []
      ∧ ∀ c, (s.damper c).targetRaised = false)
    ∧ (∀ c, (s.damper c).state = .raising → (s.settings c).kind = .damper)
    ∧ ∀ a ∈ s.planner.claims, a.kind = .damper → (s.settings a.channel).kind = .damper

end Sys2Proof.Machine
end

