-- ==== Sys2Proof/Certificates/Slice0/Obligations.lean ====
section
/-! DEFINITION. The statements for the provers. A statement of a command's result holds for every steady state, that is, for every state a step can leave (`State.settled`, `State.referenceTaken` are invariants, stated below); `s.advance u` is the part with its local time at the command's moment. Three choices of the model run through them and are no rule of the spec: a command carries its moment, and local time is the later of the two (log 1); a command whose condition does not hold passes the time alone (log 2); what follows every command, `State.settle`, comes in the order of log 24. -/

set_option Elab.async false

open Sys2Proof Sys2Proof.Machine

/-! ## The queue of commands -/

/-- The step of a state with command `c` at the front of its queue is `exec c` on the state with the queue's rest; an empty queue idles (log 4). -/
def Obligations.StepRunsTheFrontCommand : Prop :=
  (∀ (c : Instr) (s : State), step { s with pending := c :: s.pending } = exec c s)
    ∧ ∀ s : State, s.pending = [] → step s = .next s

/-- No command changes the queue, and only the five commands of the pins change RESET_N, the supply, the record of power and the straps. That there is a queue is the model's choice (log 4), and so is a strap level that stands as it was (log 8). -/
def Obligations.CommandsLeaveQueueAndPinsAlone : Prop :=
  ∀ (c : Instr) (s t : State), exec c s = .next t →
    t.pending = s.pending
      ∧ (movesPins c = false →
          t.resetNLow = s.resetNLow ∧ t.supply = s.supply ∧ t.powered = s.powered ∧ t.straps = s.straps)

/-- Whatever the command, the state it leaves has nothing left over: no hold to judge, no piece to finish, the company deadline as R9 keeps it, no REPORT to offer and no reset to make (R9, R11, R14, R109, R162). -/
def Obligations.EveryStepLeavesASettledState : Prop :=
  ∀ s t : State, s.settled = true → step s = .next t → t.settled = true

/-- The reference of a rejoining station is taken as soon as it can be, and a clock in COUNTIN, PLAYING or HOLDING has a position (R21, R41). -/
def Obligations.RejoinReferenceIsTakenAtOnce : Prop :=
  ∀ s t : State, s.referenceTaken → step s = .next t → t.referenceTaken

/-! ## Laws kept by every step -/

/-- The score store keeps its canonical form. -/
def Obligations.StoreStaysCanonical : Prop :=
  ∀ s t : State, s.storeCanonical → s.operationAllowed → step s = .next t → t.storeCanonical ∧ t.operationAllowed

/-- No step changes a byte of a sector at or above the protect start sector in force (R170). -/
def Obligations.ProtectedSectorsNeverChange : Prop :=
  ∀ s t : State, s.operationAllowed → step s = .next t →
    t.operationAllowed ∧ ∀ a, s.options.protectStart ≤ sectorOf a → t.store.read a = s.store.read a

/-- Flight trim, consecutive misses, trim D, beat length L and T_score stay in their ranges (R25, R31, R101). -/
def Claims.LearnedFiguresStayInRange : Prop := ∀ s t : State, s.figuresInRange → step s = .next t → t.figuresInRange

/-- Neither Pf nor a hold position passes the last subtick of the beat (R22). -/
def Claims.PositionStaysBeforeTheBoundary : Prop :=
  ∀ s t : State, s.figuresInRange → s.positionLawful → step s = .next t → t.positionLawful

/-- While the clock has a position it never passes the last subtick of the beat, and no step takes it back, but for one that leaves PLAYING for REJOINING; in HOLDING it is the hold position (R22). -/
def Claims.PositionNeverFallsBack : Prop :=
  ∀ s t : State, s.figuresInRange → s.positionLawful → s.referenceTaken → step s = .next t →
    s.position ≤ s.clock.pb + 7679
      ∧ (∀ h, s.station.state = .holding → s.clock.hold = some h → s.position = h.pos)
      ∧ (s.hasPosition = true → t.hasPosition = true →
          ¬(s.station.state = .playing ∧ t.station.state = .rejoining) → s.position ≤ t.position)

/-- The figures of the clock and the channels stay in their ranges, and the position never decreases but on entry to REJOINING from PLAYING (R22, R25, R31, R101). -/
def Obligations.FiguresStayInRange : Prop :=
  Claims.LearnedFiguresStayInRange ∧ Claims.PositionStaysBeforeTheBoundary ∧ Claims.PositionNeverFallsBack

/-- The strike queue holds at most 64 entries, in order of position and voice, no two alike (R63). -/
def Claims.StrikesStayInQueueOrder : Prop := ∀ s t : State, s.strikesOrdered → step s = .next t → t.strikesOrdered

/-- The claimant list stands in order of time, then channel, with at most one claim of a channel (R81). -/
def Claims.ClaimsStayInOrder : Prop := ∀ s t : State, s.claimsOrdered → step s = .next t → t.claimsOrdered

/-- The strike queue and the claimant list stand in their orders (R63, R81). -/
def Obligations.StrikeQueueStaysOrdered : Prop := Claims.StrikesStayInQueueOrder ∧ Claims.ClaimsStayInOrder

/-- The confirm list holds at most 32 records, in list order (R107, R113). -/
def Claims.ConfirmRecordsStayInOrder : Prop := ∀ s t : State, s.confirmOrdered → step s = .next t → t.confirmOrdered

/-- The timeline list holds at most 16 events, in order of position (R51). -/
def Claims.TimelineStaysInOrder : Prop := ∀ s t : State, s.timelineOrdered → step s = .next t → t.timelineOrdered

/-- The confirm list and the timeline list stand in their orders, within their lengths (R51, R107, R113). -/
def Obligations.ConfirmListStaysOrdered : Prop := Claims.ConfirmRecordsStayInOrder ∧ Claims.TimelineStaysInOrder

/-- The transmit queue holds at most 8 frames, its unsent ones in order of class, with at most one unsent MARK (R152, R153). -/
def Obligations.TransmitQueueStaysOrdered : Prop := ∀ s t : State, s.transmitOrdered → step s = .next t → t.transmitOrdered

/-- The drive slots in use never exceed drive_slots, and none is in use in CUT (R79, R138). -/
def Claims.SlotsStayLawful : Prop := ∀ s t : State, s.slotsLawful → step s = .next t → t.slotsLawful

/-- A channel never drives while it recovers, holds at most one armed strike, and drives with a width of min_w to max_w, where no pulse end is overdue, as PULSE_END comes at its own moment (R88, R89). -/
def Claims.StrikersStayLawful : Prop :=
  ∀ s t : State, s.strikersLawful → s.slotsLawful → s.strikesOrdered →
    (∀ c p, (s.channel c).pulse = some p → t.now ≤ p.ends) → step s = .next t → t.strikersLawful

/-- The drive slots and the striker channels stay within their laws (R79, R88, R89, R138). -/
def Obligations.DriveSlotsStayLawful : Prop := Claims.SlotsStayLawful ∧ Claims.StrikersStayLawful

/-- Every pending item's count lies in 1 … 255 (R160). -/
def Claims.ItemCountsStayInRange : Prop := ∀ s t : State, s.itemsCounted → step s = .next t → t.itemsCounted

/-- The roster never holds an entry for the station's own number (R15). -/
def Claims.RosterNeverHoldsOwnStation : Prop :=
  ∀ s t : State, s.rosterExcludesOwn → step s = .next t → t.rosterExcludesOwn

/-- Every law above holds right after reset. -/
def Claims.LawsHoldAtReset : Prop :=
  State.reset.settled = true ∧ State.reset.referenceTaken ∧ State.reset.storeCanonical ∧ State.reset.operationAllowed
    ∧ State.reset.figuresInRange ∧ State.reset.strikesOrdered ∧ State.reset.confirmOrdered ∧ State.reset.transmitOrdered
    ∧ State.reset.slotsLawful ∧ State.reset.itemsCounted ∧ State.reset.rosterExcludesOwn
    ∧ State.reset.positionLawful ∧ State.reset.claimsOrdered ∧ State.reset.timelineOrdered ∧ State.reset.strikersLawful
    ∧ State.reset.scanLawful

/-! ## Reset and supply -/

/-- Right after reset the part is out of reset and every block stands at its reset values; that the port's receive stage waits for a start bit is the model's choice (log 70). -/
def Claims.ResetStateHasTheResetValues : Prop := State.reset.blocksAtReset ∧ State.reset.held = false

/-- RESET_N_ASSERT and SUPPLY_FALL reset every block of a part that runs, and hold it; a part already held takes the new condition alone (R1, R96, R141, R143). The kept strap level (log 8) and the receive stage at reset (log 70) are the model's choices. -/
def Claims.ResetPinAndSupplyHoldThePart : Prop :=
  ∀ (s : State) (u : Nat),
    (s.held = false →
      (∃ t, exec (.resetNAssert u) s = .next t ∧ s.wasReset t ∧ t.resetNLow = true ∧ t.supply = s.supply
          ∧ t.powered = s.powered ∧ t.straps = s.straps)
        ∧ ∃ t, exec (.supplyFall u) s = .next t ∧ s.wasReset t ∧ t.supply = .low ∧ t.resetNLow = s.resetNLow
          ∧ t.powered = s.powered ∧ t.straps = s.straps)
      ∧ (s.held = true →
          exec (.resetNAssert u) s = .next { s with resetNLow := true }
            ∧ exec (.supplyFall u) s = .next { s with supply := .low })

/-- A part leaves reset when RESET_N is high and the supply is GOOD: the straps are sampled, and the cause is PIN for RESET_N, POWER or SUPPLY for the supply, after the record of power; while the other condition holds, the part stays in reset (R1, R141, R142). The strap level recorded while the part stays in reset (log 8) and the receive stage at reset (log 70) are the model's choices. -/
def Claims.ResetEndsWithTheLastCondition : Prop :=
  ∀ (s : State) (straps : StationNo),
    (s.resetNLow = true ∧ s.supply = .good →
      ∃ t, exec (.resetNRelease straps) s = .next t ∧ s.wasReset t ∧ t.held = false ∧ t.station.own = straps
        ∧ t.station.cause = .pin ∧ t.powered = s.powered)
      ∧ (s.resetNLow = true ∧ s.supply = .low →
          exec (.resetNRelease straps) s = .next { s with resetNLow := false, straps := straps })
      ∧ (s.resetNLow = false → exec (.resetNRelease straps) s = .next s)
      ∧ (s.supply = .low ∧ s.resetNLow = false →
          ∃ t, exec (.supplyRise straps) s = .next t ∧ s.wasReset t ∧ t.held = false ∧ t.station.own = straps
            ∧ t.station.cause = (if s.powered = true then .supply else .power) ∧ t.powered = true)
      ∧ (s.supply = .low ∧ s.resetNLow = true →
          exec (.supplyRise straps) s = .next { s with supply := .good, powered := true, straps := straps })
      ∧ (s.supply = .good → exec (.supplyRise straps) s = .next s)

/-- RETENTION_LOSS loses the record of power and nothing else (R142). -/
def Claims.RetentionLossClearsTheRecordOfPower : Prop :=
  ∀ s : State, exec .retentionLoss s = .next { s with powered := false }

/-- A reset, by RESET_N or by the logic supply, that falls while a program or an erase runs leaves each byte it was changing somewhere between its old value and the new one, bit by bit, and every other byte as it was (R176; the choice is a free value, log 19). -/
def Obligations.InterruptedStoreOperationLeavesBytesBetween : Prop :=
  ∀ (s t : State) (u : Nat), s.held = false → s.storeCanonical →
    exec (.resetNAssert u) s = .next t ∨ exec (.supplyFall u) s = .next t →
    (∀ addr data req ends, s.handler = .programming addr data req ends → ∀ a,
      if addr ≤ a ∧ a < addr + 8 then
        ∃ m : Byte, t.store.read a
          = (s.store.read a &&& dataByte data (a - addr)) ||| (s.store.read a &&& m)
      else t.store.read a = s.store.read a)
      ∧ ∀ addr req ends, s.handler = .erasing addr req ends → ∀ a,
          if sectorOf a = sectorOf addr then ∃ m : Byte, t.store.read a = s.store.read a ||| m
          else t.store.read a = s.store.read a

/-- A part held in reset does nothing at any other command; it notes the level of a button's pin (R1; log 13, 40). -/
def Claims.HeldPartDoesNothing : Prop :=
  ∀ (c : Instr) (s : State), s.held = true → movesPins c = false →
    match c with
    | .buttonInputEdge _ .startIn level =>
      exec c s = .next { s with station := { s.station with startButton := { s.station.startButton with asserted := level } } }
    | .buttonInputEdge _ .stopIn level =>
      exec c s = .next { s with station := { s.station with stopButton := { s.station.stopButton with asserted := level } } }
    | _ => exec c s = .next s

/-! ## The life of the station -/

/-- Validation in OFFLINE: with a valid option block its settings are in force and the station listens; with none the factory settings are in force and it enters SERVICE. The parts are judged and the rail is judged from the next sample on (R2, R3, R12, R134, R147, R169). In any other state nothing happens. -/
def Claims.ValidationTakesItsEffect : Prop :=
  ∀ (s : State) (u : Nat), s.steady = true → s.awake = true →
    (s.station.state = .offline →
      ∃ t, exec (.validationComplete u) s = .next t
        ∧ t.parts = checkParts s.store
        ∧ t.rail = { s.rail with judging := true, downRun := 0, cutRun := 0, upRun := 0 }
        ∧ (t.port.quietSince = none ∧ t.port.listenFrom = s.at u ∧ t.port.acceptFrom = s.at u + 12 * t.options.bitTime
          ∧ t.port.rx = .waiting)
        ∧ s.changesOnly [.now, .station, .port, .rail, .inputs, .attention, .options, .parts] t
        ∧ (match parseOptions s.store with
          | some o => t.options = o
              ∧ t.station = { s.station with
                  state := .listening, joinDeadline := some (s.at u + o.presenceTimeout), keepalive := none }
          | none => t.options = .factory
              ∧ t.station = { s.station with state := .service, keepalive := some (s.at u + 250000) }))
      ∧ (s.station.state ≠ .offline → exec (.validationComplete u) s = .next (s.advance u))

/-- A part directory entry: no part without its mark 0xA5; a valid part where the start address is a multiple of 8 at or above 0x800, the records lie in the store and their CRC is the entry's; an invalid part otherwise (11.2, R169). -/
def Claims.PartsAreCheckedByTheDirectory : Prop :=
  ∀ (m : Memory) (n : Piece),
    let byte := fun k : Nat => (m.read (0x400 + 16 * n.val + k)).toNat
    let start := byte 2 * 256 + byte 3
    let count := byte 4 * 256 + byte 5
    (checkParts m)[n] =
      if byte 0 ≠ 0xA5 then .noPart
      else if start % 8 = 0 ∧ 0x800 ≤ start ∧ start + 8 * count ≤ 65536
          ∧ (crc16 ((List.range (8 * count)).map fun k => m.read (start + k))).toNat = byte 6 * 256 + byte 7 then
        .valid start count
      else .invalid

/-- The CRC: from 0xFFFF, one bit after the other, the most significant of each byte first, the value shifted and combined with 0x1021 where the bit and the value's top bit differ; over a run of bytes and its CRC it is 0 (R145). -/
def Claims.CrcIsThatOfR145 : Prop :=
  crc16 [] = 0xFFFF
    ∧ (∀ (bs : List Byte) (x : Byte), crc16 (bs ++ [x]) =
        ((List.range 8).map fun k => x.getLsbD (7 - k)).foldl
          (fun (v : BitVec 16) (b : Bool) => if v.getLsbD 15 = b then v <<< 1 else (v <<< 1) ^^^ 0x1021) (crc16 bs))
    ∧ ∀ bs : List Byte, crc16 (bs ++ fieldBytes (crc16 bs) 2) = 0

/-- The option block: blank or with a wrong CRC it is refused, and so it is where a plain setting is out of its range or the rail settings fail R134; the settings of a valid block are the bytes of the layout table (11.2, R134, R168). -/
def Claims.OptionBlockIsReadByTheLayout : Prop :=
  ∀ (m : Memory) (o : Options), parseOptions m = some o →
    let b := fun a : Nat => (m.read a).toNat
    let b2 := fun a : Nat => b a * 256 + b (a + 1)
    (¬(m.wf = true ∧ ∀ a, a < 1024 → m.read a = 0xFF))
      ∧ (crc16 ((List.range 0x3FE).map m.read)).toNat = b2 0x3FE
      ∧ (b 0 ≤ 2 ∧ o.bitTime = (if b 0 = 0 then 4 else if b 0 = 1 then 2 else 1))
      ∧ (1 ≤ b 1 ∧ b 1 ≤ 16 ∧ o.presenceTimeout = 100000 * b 1)
      ∧ (1 ≤ b 2 ∧ b 2 ≤ 5 ∧ o.cls.code.toNat = b 2)
      ∧ (b 3 ≤ 2 ∧ o.markInterval = (if b 3 = 0 then .everyBeat else if b 3 = 1 then .everySecondBeat else .barFirst))
      ∧ (1 ≤ b 4 ∧ b 4 ≤ 8 ∧ o.markAge = b 4) ∧ (1 ≤ b 5 ∧ b 5 ≤ 16 ∧ o.gainPhase = b 5) ∧ (b 6 ≤ 15 ∧ o.gainFreq = b 6)
      ∧ (64 ≤ b2 7 ∧ b2 7 ≤ 7680 ∧ o.capture = b2 7) ∧ (1 ≤ b 9 ∧ b 9 ≤ 60 ∧ o.holdLimit = b 9)
      ∧ (200000 ≤ o.defaultTempo ∧ o.defaultTempo ≤ 2000000 ∧ o.defaultTempo = b2 0xA * 256 + b 0xC)
      ∧ (1 ≤ b 0xD ∧ b 0xD ≤ 15 ∧ o.defaultBpb = b 0xD) ∧ (1 ≤ b 0xE ∧ b 0xE ≤ 8 ∧ o.defaultLead = b 0xE)
      ∧ (b 0xF ≤ 15 ∧ o.defaultPiece.val = b 0xF) ∧ (1 ≤ b 0x10 ∧ b 0x10 ≤ 4 ∧ o.lookAhead = b 0x10)
      ∧ (b2 0x11 ≤ 50000 ∧ o.lateTol = b2 0x11) ∧ (1 ≤ b 0x13 ∧ b 0x13 ≤ 24 ∧ o.driveSlots = b 0x13)
      ∧ (b 0x14 ≠ 0 ∧ o.nom = b 0x14)
      ∧ ((b 0x15 = 1 ∨ b 0x15 = 2 ∨ b 0x15 = 4 ∨ b 0x15 = 8) ∧ o.depth = b 0x15)
      ∧ (1 ≤ b 0x16 ∧ b 0x16 ≤ 254 ∧ o.cut = b 0x16) ∧ (b 0x16 < b 0x17 ∧ o.warn = b 0x17)
      ∧ (b 0x18 ≤ 32 ∧ b 0x17 + b 0x18 ≤ 255 ∧ o.hyst = b 0x18)
      ∧ (b2 0x19 ≤ 10000 ∧ o.winEarly = b2 0x19) ∧ (b2 0x1B ≤ 10000 ∧ o.winLate = b2 0x1B)
      ∧ (1 ≤ b 0x1D ∧ b 0x1D ≤ 8 ∧ o.rotorGain = b 0x1D) ∧ (1 ≤ b 0x1E ∧ b 0x1E ≤ 8 ∧ o.reportThreshold = b 0x1E)
      ∧ (b 0x1F ≤ 64 ∧ o.protectStart = b 0x1F) ∧ o.promo1 = b 0x48 ∧ o.promo2 = b 0x49

/-- The tables of a valid option block: each weight byte is 0–7, or 0x80 for a weight by class; each pin names a station and a class or is unused, no station twice; each voice names STRIKER channels or none; each channel record passes the checks of its kind, no output is named twice, and a shared sensor input has one mode (11.2, R18, R20, R85, R168). -/
def Claims.OptionTablesAreReadByTheLayout : Prop :=
  ∀ (m : Memory) (o : Options), parseOptions m = some o →
    let b := fun a : Nat => (m.read a).toNat
    let b2 := fun a : Nat => b a * 256 + b (a + 1)
    (∀ n : StationNo, (b (0x20 + n.val) ≤ 7 ∧ o.weights[n] = some (b (0x20 + n.val)))
        ∨ (b (0x20 + n.val) = 0x80 ∧ o.weights[n] = none))
      ∧ (∀ k : Fin 4, b (0x40 + 2 * k.val) = 0xFF ∨ ∃ (n : StationNo) (c : InstrClass),
          n.val = b (0x40 + 2 * k.val) ∧ c.code.toNat = b (0x41 + 2 * k.val) ∧ o.pinOf n = some c)
      ∧ (∀ (n : StationNo) (c : InstrClass), o.pinOf n = some c → ∃ k : Fin 4, b (0x40 + 2 * k.val) = n.val)
      ∧ (∀ j k : Fin 4, j ≠ k → b (0x40 + 2 * j.val) = b (0x40 + 2 * k.val) → b (0x40 + 2 * j.val) = 0xFF)
      ∧ (∀ v : Fin 128, (b (0x100 + 2 * v.val) = 0xFF ∧ o.voices[v] = (none, none))
          ∨ ∃ p : Chan, p.val = b (0x100 + 2 * v.val) ∧ o.channels[p].kind = .striker ∧ o.voices[v].1 = some p
            ∧ ((b (0x101 + 2 * v.val) = 0xFF ∧ o.voices[v].2 = none)
              ∨ ∃ a : Chan, a.val = b (0x101 + 2 * v.val) ∧ o.channels[a].kind = .striker
                ∧ o.voices[v].2 = if a = p then none else some a))
      ∧ (∀ c : Chan,
          let a := 0x200 + 16 * c.val
          let x := o.channels[c]
          (b a = 0 ∧ x.kind = .unused)
            ∨ ((b a = 1 ∨ b a = 2) ∧ x.kind = .striker ∧ x.mode = (if b a = 2 then .edgeLevel else .edge)
              ∧ x.output.val = b (a + 1) ∧ x.input.val = b (a + 2) ∧ x.slopeW = b (a + 3) ∧ x.recRatio = b (a + 4)
              ∧ x.baseW = b2 (a + 5) ∧ 200 ≤ x.baseW ∧ x.baseW ≤ 20000 ∧ x.minW = b2 (a + 7) ∧ 1 ≤ x.minW
              ∧ x.minW ≤ x.maxW ∧ x.maxW = b2 (a + 9) ∧ x.maxW ≤ 30000 ∧ x.flightMin = b2 (a + 11) ∧ x.flightMin ≤ 40000
              ∧ x.flightSpan = b2 (a + 13) ∧ x.flightSpan ≤ 40000 ∧ x.recBase = 500 * b (a + 15) ∧ b (a + 15) ≤ 200)
            ∨ ((b a = 3 ∨ b a = 4) ∧ x.kind = .damper ∧ x.mode = (if b a = 4 then .edgeLevel else .edge)
              ∧ x.output.val = b (a + 1) ∧ x.input.val = b (a + 2) ∧ x.damperLead = b2 (a + 5) ∧ x.damperLead ≤ 50000))
      ∧ ∀ c d : Chan, c ≠ d → o.channels[c].kind ≠ .unused → o.channels[d].kind ≠ .unused →
          o.channels[c].output ≠ o.channels[d].output
            ∧ (o.channels[c].input = o.channels[d].input → o.channels[c].mode = o.channels[d].mode)

/-- A block is refused for nothing else: blank, a wrong CRC, a plain or rail setting out of its range, a channel record that fails R85, an output named twice or a shared input of two modes, or a voice, weight or pin that fails its check (R168). -/
def Claims.OptionBlockIsRefusedForNothingElse : Prop :=
  ∀ m : Memory, parseOptions m = none →
    m.erased 0 = true ∨ optionCrcOk m = false ∨ settingsInRange m = false
      ∨ railSettingsValid (m.u8 0x015) (m.u8 0x016) (m.u8 0x017) (m.u8 0x018) (m.u8 0x014) = false
      ∨ parseWeights m = none ∨ parsePins m = none ∨ (∃ c : Chan, parseChannel m c.val = none)
      ∨ ∃ cs, parseChannels m = some cs ∧ (channelsAgree cs = false ∨ ∃ v : Fin 128, parseVoice m cs v.val = none)

/-- VALIDATION_COMPLETE, and what it reads in the store (R2, R145, R168, R169). -/
def Obligations.ValidationPutsSettingsInForce : Prop :=
  Claims.ValidationTakesItsEffect
    ∧ Claims.PartsAreCheckedByTheDirectory
    ∧ Claims.CrcIsThatOfR145
    ∧ Claims.OptionBlockIsReadByTheLayout
    ∧ Claims.OptionTablesAreReadByTheLayout
    ∧ Claims.OptionBlockIsRefusedForNothingElse

/-- The join deadline takes a listening station to READY, with an ANNOUNCE offered and the keepalive deadline a quarter of the presence timeout on (R3, R12). -/
def Claims.JoinDeadlineEntersReady : Prop :=
  ∀ (s : State) (u : Nat), s.steady = true →
    if s.station.state = .listening ∧ due s.station.joinDeadline (s.at u) = true then
      exec (.joinDeadline u) s = .next
        (({ s.advance u with station := { s.station with
              state := .ready, joinDeadline := none, keepalive := some (s.at u + s.options.presenceTimeout / 4) } }).offer
          .announce).reportThenLeave
    else exec (.joinDeadline u) s = .next (s.advance u)

/-- The keepalive deadline, once passed, stands a quarter of the presence timeout further on, and an ANNOUNCE is offered unless one is unsent (R12). -/
def Claims.KeepaliveDeadlineQueuesAnnounce : Prop :=
  ∀ (s : State) (u : Nat), s.steady = true →
    match s.station.keepalive with
    | some d =>
      if d ≤ s.at u then
        let t : State := { s.advance u with station := { s.station with
          keepalive := some (d + s.options.presenceTimeout / 4) } }
        exec (.keepaliveDeadline u) s = .next
          (if s.port.hasUnsent TxFrame.isAnnounce = true then t else (t.offer .announce).reportThenLeave)
      else exec (.keepaliveDeadline u) s = .next (s.advance u)
    | none => exec (.keepaliveDeadline u) s = .next (s.advance u)

/-- The company deadline of a rejoining station ends the piece with the clean-up of R7: its strikes, their claims and the claims of its raised dampers are gone, an unsent MARK is withdrawn, and the inputs of the abandoned records are quiet up to their close times (R7, R9, R26, R65, R114, R126). The start, entry and return items of the clock and the station end with the piece by the model's reading (log 37). -/
def Claims.CompanyDeadlineEndsThePiece : Prop :=
  ∀ (s : State) (u : Nat), s.steady = true → s.awake = true →
    if s.station.state = .rejoining ∧ due s.station.companyDeadline (s.at u) = true then
      ∃ t, exec (.companyDeadline u) s = .next t ∧ s.cleanedUp t
        ∧ s.changesOnly [.now, .station, .port, .clock, .reader, .planner, .inputs, .confirm, .dampers, .rotor, .attention] t
    else exec (.companyDeadline u) s = .next (s.advance u)

/-- The presence deadline of a peer removes its entry, and raises PEER_LOST where the peer was in a playing state; the rejoin reference is tested (R16, R41). -/
def Claims.PresenceDeadlineRemovesThePeer : Prop :=
  ∀ (s : State) (u : Nat) (n : StationNo), s.steady = true →
    match s.peer n with
    | some e =>
      if e.presence ≤ s.at u then
        let t : State := (s.advance u).setPeer n none
        let lost : Bool := e.announced = some .countin ∨ e.announced = some .rejoining ∨ e.announced = some .playing
          ∨ e.announced = some .holding
        let t : State := if lost then t.raise srcPeerLost n.val else t
        exec (.presenceDeadline u n) s = .next t.rejoinTest.settle
          ∧ (s.station.state ≠ .rejoining → t.rejoinTest.settle = t.reportThenLeave)
      else exec (.presenceDeadline u n) s = .next (s.advance u)
    | none => exec (.presenceDeadline u n) s = .next (s.advance u)

/-! ### Buttons -/

/-- The qualifier of a button follows an edge of its pin (R8). -/
def Claims.ButtonEdgesMoveTheQualifier : Prop :=
  ∀ (s : State) (u : Nat) (b : Button) (level : Bool), s.steady = true →
    let q := s.station.button b
    exec (.buttonInputEdge u b level) s = .next
      (if q.asserted = level then s.advance u
      else (s.advance u).setStation (s.station.setButton b
        { asserted := level, since := s.at u
          state := if q.state = .pressed then .pressed else if level then .pressing else .released }))

/-- A press of START_IN qualifies after 20 ms; in READY it queues the START of the option defaults unless a START is unsent. A press of STOP_IN queues a STOP of reason BUTTON in the playing states unless a STOP is unsent (R8). -/
def Claims.ButtonPressesQueueStartAndStop : Prop :=
  ∀ (s : State) (u : Nat), s.steady = true →
    (let q := s.station.startButton
      if q.state = .pressing ∧ q.asserted = true ∧ 20000 ≤ s.at u - q.since then
        let t : State := { s.advance u with station := { s.station with startButton := { q with state := .pressed } } }
        exec (.startInPress u) s = .next
          (if s.station.state = .ready ∧ s.port.hasUnsent TxFrame.isStart = false then
            (t.offer (.start (BitVec.ofNat 8 s.options.defaultPiece.val) 1 (BitVec.ofNat 8 s.options.defaultLead)
              (BitVec.ofInt 24 s.options.defaultTempo))).reportThenLeave
          else t)
      else exec (.startInPress u) s = .next (s.advance u))
      ∧ (let q := s.station.stopButton
        if q.state = .pressing ∧ q.asserted = true ∧ 20000 ≤ s.at u - q.since then
          let t : State := { s.advance u with station := { s.station with stopButton := { q with state := .pressed } } }
          exec (.stopInPress u) s = .next
            (if s.station.state.playingState = true ∧ s.port.hasUnsent TxFrame.isStop = false then
              (t.offer (.stop 0x01)).reportThenLeave
            else t)
        else exec (.stopInPress u) s = .next (s.advance u))

/-- A pressed button is released after 20 ms deasserted (R8). -/
def Claims.ButtonReleaseQualifies : Prop :=
  ∀ (s : State) (u : Nat) (b : Button), s.steady = true →
    let q := s.station.button b
    exec (.buttonReleaseQualified u b) s = .next
      (if q.state = .pressed ∧ q.asserted = false ∧ 20000 ≤ s.at u - q.since then
        (s.advance u).setStation (s.station.setButton b { q with state := .released })
      else s.advance u)

/-! ## Frames of other stations -/

/-- In OFFLINE no frame does anything (R2; log 42). -/
def Claims.OfflinePartIgnoresFrames : Prop :=
  ∀ (s : State) (u : Nat) (n : StationNo), s.steady = true → s.station.state = .offline →
    (∀ p b l m, exec (.startFrame u n p b l m) s = .next (s.advance u))
      ∧ (∀ r, exec (.stopFrame u n r) s = .next (s.advance u))
      ∧ (∀ p h, exec (.releaseFrame u n p h) s = .next (s.advance u))
      ∧ (∀ p l b st q h, exec (.markFrame u n p l b st q h) s = .next (s.advance u))
      ∧ (∀ c st p k, exec (.announceFrame u n c st p k) s = .next (s.advance u))
      ∧ (∀ m p a b o, exec (.muteFrame u n m p a b o) s = .next (s.advance u))
      ∧ (∀ g, exec (.queryFrame u n g) s = .next (s.advance u))
      ∧ (∀ a b c d e, exec (.reportFrame u n a b c d e) s = .next (s.advance u))
      ∧ (∀ a b c d, exec (.svcReplyFrame u n a b c d) s = .next (s.advance u))
      ∧ ∀ c : Instr, serviceRequestOf n c = some u → exec c s = .next (s.advance u)

/-- A frame that the receive stage has not taken up, because its line had not been recessive for 12 bit times where the frame began, reaches no block: the port waits on, its stop bit the first of the next 12, and nothing else changes (R147, R155; log 61). -/
def Claims.UnheardFramesReachNoBlock : Prop :=
  ∀ (s : State) (c : Instr) (u kind : Nat) (n : StationNo), s.steady = true → s.station.state ≠ .offline →
    frameOf c = some (u, n, kind) → ¬s.takesUp u (frameTime kind s.options.bitTime) →
    exec c s = .next ((s.advance u).setPort
      { s.port with quietSince := none, yieldOwed := false, acceptFrom := s.at u + 11 * s.options.bitTime })

/-- The bit times of a frame, by its kind code (09, the frame table). -/
def Claims.FrameTimesAreThoseOfTheTable : Prop :=
  ∀ b : Time, frameTime 0x1 b = 80 * b ∧ frameTime 0x2 b = 160 * b ∧ frameTime 0x3 b = 110 * b ∧ frameTime 0x4 b = 50 * b
    ∧ frameTime 0x5 b = 60 * b ∧ frameTime 0x6 b = 140 * b ∧ frameTime 0x7 b = 100 * b ∧ frameTime 0x8 b = 50 * b
    ∧ frameTime 0x9 b = 160 * b ∧ frameTime 0xA b = 160 * b

/-- A valid frame of any kind that bears this station's own number and is not its own is a clash: outside HALTED and SERVICE the station enters HALTED with nothing queued, playing, held or pending of the piece, and no claim of its strikes or raised dampers waits; CLASH is raised with the frame's kind code as detail (R10, R65, R126, R156). -/
def Obligations.ClashHaltsTheStation : Prop :=
  ∀ (s : State) (c : Instr) (u kind : Nat), s.steady = true → s.awake = true → s.station.state ≠ .offline →
    frameOf c = some (u, s.station.own, kind) → s.takesUp u (frameTime kind s.options.bitTime) →
    ∃ t, exec c s = .next t
      ∧ t.roster = s.roster
      ∧ t.item srcClash = some (raisedItem (s.item srcClash) kind (s.at u))
      ∧ (if s.station.state = .halted ∨ s.station.state = .service then
          t.station = s.station ∧ s.changesOnly [.now, .port, .attention] t
        else
          t.station.state = .halted ∧ t.station.activePiece = none ∧ t.station.finishing = false
            ∧ t.station.joinDeadline = none ∧ t.planner.queue = [] ∧ t.reader.state = .idle ∧ t.reader.timeline = []
            ∧ t.reader.mute = none ∧ t.clock.hold = none ∧ t.clock.remembered = none
            ∧ (∀ c, (s.settings c).kind = .damper → (t.damper c).targetRaised = false)
            ∧ t.rotor = { target := 0, pendingTarget := none, duty := 0, window := 0, zeroBeats := 0 }
            ∧ (∀ e ∈ t.port.unsent, e.frame.isMark = false ∧ e.frame.isStart = false ∧ e.frame.isStop = false
              ∧ e.frame.isRelease = false)
            ∧ s.claimsWithdrawn t ∧ t.channels = s.channels ∧ t.confirm = s.confirm)

/-- REPORT and SVC_REPLY frames of peers refresh the roster and change nothing else (R15, R156). -/
def Claims.ReportAndReplyFramesRefreshTheRoster : Prop :=
  ∀ (s : State) (u : Nat) (n : StationNo),
    (s.hears u n 0x7 → ∀ a b c d e, exec (.reportFrame u n a b c d e) s = .next (s.heard u n))
      ∧ (s.hears u n 0xA → ∀ a b c d, exec (.svcReplyFrame u n a b c d) s = .next (s.heard u n))

/-- An ANNOUNCE of a peer sets its announced state and piece, and the class of an unpinned entry; a pinned entry keeps its class, and a class that differs raises CAPABILITY_MISMATCH (R17, R18). -/
def Claims.AnnounceUpdatesTheRosterEntry : Prop :=
  ∀ (s : State) (u : Nat) (n : StationNo) (cls state piece cause : Byte), s.hears u n 0x1 →
    let e := refreshed s.options (s.at u) n (s.peer n)
    let e' : RosterEntry := { e with
      cls := if e.pinned = true then e.cls else InstrClass.ofCode cls
      announced := StationState.ofCode state
      piece := if piece = 0xFF then .none else if h : piece.toNat < 16 then .piece ⟨piece.toNat, h⟩ else .unknown }
    let t := (s.heard u n).setPeer n (some e')
    let t := if e.pinned = true ∧ InstrClass.ofCode cls ≠ e.cls then t.raise srcCapabilityMismatch n.val else t
    exec (.announceFrame u n cls state piece cause) s = .next t.rejoinTest.settle
      ∧ (s.station.state ≠ .rejoining → t.rejoinTest.settle = t.reportThenLeave)

/-- A MUTE for this station clears the mute window, or sets it and takes the PLANNED entries inside it from the strike queue; a MUTE for others refreshes the roster alone (R55, R57). -/
def Claims.MuteSetsAndClearsTheWindow : Prop :=
  ∀ (s : State) (u : Nat) (n : StationNo) (mask : BitVec 32) (piece : Byte) (a b : BitVec 16) (onOff : Byte), s.hears u n 0x6 →
    if mask.getLsbD s.station.own.val = false then
      exec (.muteFrame u n mask piece a b onOff) s = .next (s.heard u n)
    else if onOff = 0 then
      exec (.muteFrame u n mask piece a b onOff) s = .next ((s.heard u n).setReader { s.reader with mute := none })
    else
      let r : Reader := { s.reader with mute := some { piece := piece, startBar := a.toNat, stopBar := b.toNat } }
      let t := ((s.heard u n).setReader r).setPlanner
        { s.planner with queue := s.planner.queue.filter fun e => e.isArmed || !s.muted r e.pos }
      exec (.muteFrame u n mask piece a b onOff) s = .next t.settle
        ∧ (s.station.finishing = false → t.settle = t)

/-- A QUERY for this station is answered by a REPORT bound to the highest pending item, or to none, with the sender as requester. At the moment of a clearing the answer stands before the spontaneous REPORT that was offered there (log 78) (R161, R164). -/
def Claims.QueryIsAnswered : Prop :=
  ∀ (s : State) (u : Nat) (n : StationNo) (target : Byte), s.hears u n 0x8 →
    exec (.queryFrame u n target) s = .next
      (if target = stationByte s.station.own then
        (let t := (s.heard u n).offer (.report s.highestPending (some n))
        if s.attention.clearedAt = some (s.at u) then t.setPort (t.port.spontaneousLast (s.at u)) else t).reportThenLeave
      else s.heard u n)

/-- A QUERY at the frame end of the REPORT that clears the highest item: taken before the clearing or after it, it leaves the same queue, with the same answers, and the same items (R161, R164; log 77, 78). -/
def Claims.QueryAndClearingCommute : Prop :=
  ∀ (s : State) (u : Nat) (n : StationNo) (a : Attempt) (k : Nat) (x : Source) (r : Option StationNo),
    s.hears u n 0x8 → s.awake = true → s.transmitOrdered → s.port.attempt = some a → a.entry.frame = .report (some x) r →
    charactersOfKind a.payload.kindCode = some k → a.started + 10 * k * s.options.bitTime ≤ s.at u →
    s.highestPending = some x → s.port.length ≤ 6 → (∀ e ∈ s.port.unsent, e.cls = txClass s.options e.frame) →
    let query : Instr := .queryFrame u n (stationByte s.station.own)
    ∃ asked first cleared second, exec query s = .next asked ∧ exec (.frameSent u) asked = .next first
      ∧ exec (.frameSent u) s = .next cleared ∧ exec query cleared = .next second
      ∧ first.port.unsent = second.port.unsent ∧ first.attention = second.attention
      ∧ s.changesOnly [.now, .station, .roster, .port, .attention] first
      ∧ s.changesOnly [.now, .station, .roster, .port, .attention] second

/-- The attention order: a promotion slot that names a source of default level below 7 gives it level 6, the second slot only where the first does not name the same source; every other source has its default level. A higher level stands first; within a level slot 1 stands before slot 2, both before the others, and these by number (R159). -/
def Claims.AttentionOrderIsByLevelThenRank : Prop :=
  (∀ x : Source, defaultLevel x =
      [7, 7, 6, 5, 5, 5, 5, 4, 4, 4, 3, 3, 3, 3, 3, 3, 2, 2, 2, 2, 2, 2, 2, 1, 1, 1, 1, 2, 3, 4, 5, 6, 7].getD x.val 0)
    ∧ ∀ (o : Options) (x y : Source),
      let first := fun z : Source => o.promo1 = z.val + 1 ∧ defaultLevel z < 7
      let second := fun z : Source => o.promo2 = z.val + 1 ∧ defaultLevel z < 7 ∧ o.promo1 ≠ o.promo2
      (first x ∨ second x → effectiveLevel o x = 6)
        ∧ (¬first x → ¬second x → effectiveLevel o x = defaultLevel x)
        ∧ (effectiveLevel o y < effectiveLevel o x → attentionBefore o x y = true ∧ attentionBefore o y x = false)
        ∧ (effectiveLevel o y = effectiveLevel o x → x ≠ y →
            (first x → attentionBefore o x y = true)
              ∧ (second x → ¬first y → attentionBefore o x y = true)
              ∧ (¬first x → ¬second x → ¬first y → ¬second y → (attentionBefore o x y = true ↔ x.val < y.val)))
        ∧ attentionBefore o x x = false

/-! ### START, STOP and RELEASE -/

/-- A START in READY for a valid part starts the count-in: COUNTIN with its piece, the clock lead beats before the start position at the START's period, the reader scanning for the start bar from the part's first record with bar 1 at position 0 and nothing noted, the rotor's window at 0, no offset in the roster left to use, the self-outlier count at 0, and every DISABLED STRIKER channel whose input is not asserted enabled (R4, R33, R46, R58, R98). -/
def Obligations.StartBeginsTheCountIn : Prop :=
  ∀ (s : State) (u : Nat) (n : StationNo) (p : Piece) (bar : BitVec 16) (lead : Byte) (period : BitVec 24) (a k : Nat),
    s.hears u n 0x3 → s.awake = true → s.station.state = .ready → s.parts[p] = .valid a k →
    ∃ t, exec (.startFrame u n (BitVec.ofNat 8 p.val) bar lead period) s = .next t
      ∧ t.station = { s.station with state := .countin, activePiece := some p }
      ∧ t.port = (s.heard u n).port
      ∧ (t.clock.isSet = true ∧ t.clock.b = s.at u ∧ t.clock.d = 0 ∧ t.clock.hold = none ∧ t.clock.remembered = none
        ∧ t.clock.lastPassed = none ∧ t.clock.marks = [] ∧ t.clock.selfOutliers = 0
        ∧ t.clock.bpb = s.options.defaultBpb ∧ t.clock.beatInBar = 1
        ∧ t.clock.bar = 0
        ∧ t.clock.l = clamp 200000 2000000 period.toNat ∧ t.clock.tScore = clamp 200000 2000000 period.toNat
        ∧ t.clock.start = some { pos := (max bar.toNat 1 - 1 : Nat) * s.options.defaultBpb * 7680, found := none }
        ∧ t.clock.pb = (max bar.toNat 1 - 1 : Nat) * s.options.defaultBpb * 7680 - clampNat 1 8 lead.toNat * 7680
        ∧ t.clock.pf = t.clock.pb)
      ∧ s.scanBegun t a k (.startBar (max bar.toNat 1))
      ∧ t.offsetsConsumed
      ∧ t.rotor = { s.rotor with window := 0 }
      ∧ (∀ c, t.channel c =
          if (s.settings c).kind = .striker ∧ (s.channel c).disabled.isSome = true
              ∧ (s.input (s.settings c).input).asserted = false then
            { s.channel c with disabled := none, misses := 0 }
          else s.channel c)
      ∧ s.changesOnly [.now, .station, .roster, .port, .clock, .reader, .planner, .channels, .rotor] t

/-- Every other START is ignored: it raises START_IGNORED in the playing states and PART_INVALID in READY for an invalid part, and nothing elsewhere (R4, R5). -/
def Claims.OtherStartsAreIgnored : Prop :=
  ∀ (s : State) (u : Nat) (n : StationNo) (piece : Byte) (bar : BitVec 16) (lead : Byte) (period : BitVec 24), s.hears u n 0x3 →
    (s.station.state.playingState = true →
      exec (.startFrame u n piece bar lead period) s = .next
        ((s.heard u n).raise srcStartIgnored piece.toNat).reportThenLeave)
      ∧ (s.station.state = .listening ∨ s.station.state = .halted ∨ s.station.state = .service →
          exec (.startFrame u n piece bar lead period) s = .next (s.heard u n))
      ∧ (s.station.state = .ready →
          (16 ≤ piece.toNat → exec (.startFrame u n piece bar lead period) s = .next (s.heard u n))
            ∧ ∀ p : Piece, piece.toNat = p.val →
                (s.parts[p] = .noPart → exec (.startFrame u n piece bar lead period) s = .next (s.heard u n))
                  ∧ (s.parts[p] = .invalid → exec (.startFrame u n piece bar lead period) s = .next
                      ((s.heard u n).raise srcPartInvalid p.val).reportThenLeave))

/-- A STOP in a playing state ends the piece with the clean-up of R7, pulses in progress running on: its strikes, their claims and the claims of its raised dampers are gone, an unsent MARK is withdrawn, and the inputs of the abandoned records are quiet up to their close times; in any other state it is ignored (R7, R26, R65, R114, R126). The start, entry and return items of the clock and the station end with the piece by the model's reading (log 37). -/
def Claims.StopEndsThePiece : Prop :=
  ∀ (s : State) (u : Nat) (n : StationNo) (reason : Byte), s.hears u n 0x4 → s.awake = true →
    if s.station.state.playingState = true then
      ∃ t, exec (.stopFrame u n reason) s = .next t ∧ s.cleanedUp t ∧ t.peer n = (s.heard u n).peer n
        ∧ s.changesOnly [.now, .station, .roster, .port, .clock, .reader, .planner, .inputs, .confirm, .dampers, .rotor, .attention] t
    else exec (.stopFrame u n reason) s = .next (s.heard u n)

/-- The release of a hold: the beat origin is reset from the hold position, no mark is left to use, here or in the roster, the hold is passed, and the station returns to its return state, in REJOINING with no MARK unsent; the self-outlier count is 0, and this station's own unsent RELEASE of the hold is withdrawn. A station that finishes, back in PLAYING with its strike queue and its confirm list empty, enters READY (R11, R26, R32, R40). -/
def Claims.ReleaseLeavesTheHold : Prop :=
  ∀ (s : State) (u : Nat) (n : StationNo) (hold : HoldState), s.hears u n 0x5 → s.awake = true →
    s.station.state = .holding → s.station.activePiece.isSome = true → s.clock.isSet = true → s.clock.hold = some hold →
    hold.number < 256 →
    ∃ t, exec (.releaseFrame u n (pieceByte s.station.activePiece) (BitVec.ofNat 8 hold.number)) s = .next t
      ∧ (if s.station.finishing = true ∧ s.station.returnState.getD .playing = .playing ∧ t.planner.queue = [] ∧ t.confirm = []
          then t.finished else s.leftHold t u hold)
      ∧ t.offsetsConsumed
      ∧ t.port.hasUnsent (fun f => f.isReleaseOf (pieceByte s.station.activePiece) (BitVec.ofNat 8 hold.number)) = false
      ∧ (s.station.finishing = false → t.rotor = s.rotor)
      ∧ s.changesOnly [.now, .station, .roster, .port, .clock, .reader, .planner, .channels, .inputs, .confirm, .dampers,
          .rotor, .attention] t

/-- The other RELEASE frames for the active piece are remembered, or raise LATE_RELEASE; those for another piece or in another state are ignored (R39). -/
def Claims.OtherReleasesAreLateOrRemembered : Prop :=
  ∀ (s : State) (u : Nat) (n : StationNo) (piece h : Byte), s.hears u n 0x5 →
    let late := ((s.heard u n).raise srcLateRelease h.toNat).reportThenLeave
    let remembered := (s.heard u n).setClock { s.clock with remembered := some h.toNat }
    let ours := s.station.activePiece.isSome = true ∧ piece = pieceByte s.station.activePiece
    (¬ours → exec (.releaseFrame u n piece h) s = .next (s.heard u n))
      ∧ (s.station.state.playingState = false → exec (.releaseFrame u n piece h) s = .next (s.heard u n))
      ∧ (ours → s.station.state = .countin ∨ s.station.state = .rejoining ∨ s.station.state = .playing →
          exec (.releaseFrame u n piece h) s = .next
            (match s.clock.lastPassed with
            | some k => if h.toNat ≤ k then late else remembered
            | none => remembered))
      ∧ (ours → s.station.state = .holding → ∀ hold, s.clock.hold = some hold →
          (h.toNat < hold.number → exec (.releaseFrame u n piece h) s = .next late)
            ∧ (hold.number < h.toNat → exec (.releaseFrame u n piece h) s = .next remembered))

/-! ### MARK -/

/-- A usable mark of a peer in COUNTIN, PLAYING or HOLDING gives an offset; beyond the capture range it is an outlier, counted and raised. A mark that is not usable is counted as unusable (R17, R19, R28, R29). -/
def Obligations.MarkGivesAnOffset : Prop :=
  ∀ (s : State) (u : Nat) (n : StationNo) (pos : BitVec 32) (len : BitVec 24) (bar : BitVec 16) (state piece hold : Byte),
    s.hears u n 0x2 → s.station.state = .countin ∨ s.station.state = .playing ∨ s.station.state = .holding →
    let t := s.heard u n
    let e := refreshed s.options (s.at u) n (s.peer n)
    let e : RosterEntry := { e with
      announced := StationState.ofCode state
      piece := if piece = 0xFF then .none else if h : piece.toNat < 16 then .piece ⟨piece.toNat, h⟩ else .unknown }
    let m : LastMark :=
      { pm := pos.toInt, lm := len.toNat, state := state, piece := piece, received := s.at u, offset := none, consumed := true }
    let o := pos.toInt - t.position
    let usable := s.station.activePiece.isSome = true ∧ piece = pieceByte s.station.activePiece
      ∧ state = s.station.state.code
      ∧ (s.station.state = .holding → ∃ h, s.clock.hold = some h ∧ hold.toNat = h.number)
    (usable → (o.natAbs : Int) ≤ s.options.capture →
      exec (.markFrame u n pos len bar state piece hold) s = .next
        ((t.setPeer n (some { e with lastMark := some { m with offset := some o, consumed := false } })).setClock
          { s.clock with marks := s.clock.marks ++ [{ peer := n, outlier := false, sign := signOf o }] }))
      ∧ (usable → s.options.capture < (o.natAbs : Int) →
          exec (.markFrame u n pos len bar state piece hold) s = .next
            (((t.setPeer n (some { e with lastMark := some { m with offset := some o }, outliers := step16 e.outliers })).setClock
              { s.clock with marks := s.clock.marks ++ [{ peer := n, outlier := true, sign := signOf o }] }).raise
                srcOutlier n.val).reportThenLeave)
      ∧ (¬usable → exec (.markFrame u n pos len bar state piece hold) s = .next
          (t.setPeer n (some { e with lastMark := some m, unusable := step16 e.unusable })))

/-- A MARK that shows a piece under way, for a valid part, takes a listening or ready station to REJOINING with that piece; its mark is recorded, the strike queue is flushed, the clock's position is unset, and from there the reference is tested, which alone sets it, and the company deadline is kept (R3, R6, R9, R19, R21, R41, R46). -/
def Claims.MarkTakesTheStationToRejoining : Prop :=
  ∀ (s : State) (u : Nat) (n : StationNo) (pos : BitVec 32) (len : BitVec 24) (bar : BitVec 16) (state : Byte) (p : Piece)
    (hold : Byte) (a k : Nat), s.hears u n 0x2 → s.awake = true → s.parts[p] = .valid a k →
    (s.station.state = .listening ∧ (state = 3 ∨ state = 5 ∨ state = 6)) ∨ (s.station.state = .ready ∧ (state = 3 ∨ state = 5)) →
    ∃ t, exec (.markFrame u n pos len bar state (BitVec.ofNat 8 p.val) hold) s = .next t
      ∧ (∃ r : State, t = r.rejoinTest.settle ∧ (s.advance u).rejoinsUnset r (some p)
        ∧ (∃ e, r.peer n = some e ∧ e.lastMark = some
            { pm := pos.toInt, lm := len.toNat, state := state, piece := BitVec.ofNat 8 p.val, received := s.at u, offset := none
              consumed := true })
        ∧ (∀ k, k ≠ n → r.peer k = s.peer k)
        ∧ s.changesOnly [.now, .station, .roster, .port, .clock, .reader, .planner, .attention] r)
      ∧ t.station.state = .rejoining ∧ t.station.activePiece = some p ∧ t.station.joinDeadline = none
      ∧ t.station.companyDeadline = none
      ∧ t.station.keepalive =
          (if s.station.state = .listening then some (s.at u + s.options.presenceTimeout / 4) else s.station.keepalive)
      ∧ t.planner.queue = [] ∧ (t.clock.isSet = false → t.reader.state = .scanPending)
      ∧ s.changesOnly [.now, .station, .roster, .port, .clock, .reader, .planner, .rotor, .attention] t

/-- A rejoining station takes the marks of a piece under way: for the rejoin reference while its position is unset, as offsets when it is set; the reference is tested, and the company deadline is kept (R9, R28, R41). -/
def Claims.MarkServesTheRejoiningStation : Prop :=
  ∀ (s : State) (u : Nat) (n : StationNo) (pos : BitVec 32) (len : BitVec 24) (bar : BitVec 16) (state piece hold : Byte),
    s.hears u n 0x2 → s.station.state = .rejoining → s.station.activePiece.isSome = true →
    piece = pieceByte s.station.activePiece → state = 3 ∨ state = 5 →
    let t := s.heard u n
    let e : RosterEntry := { refreshed s.options (s.at u) n (s.peer n) with
      announced := StationState.ofCode state
      piece := if h : piece.toNat < 16 then .piece ⟨piece.toNat, h⟩ else .unknown }
    let m : LastMark :=
      { pm := pos.toInt, lm := len.toNat, state := state, piece := piece, received := s.at u, offset := none, consumed := true }
    let o := pos.toInt - t.position
    (s.clock.isSet = false → exec (.markFrame u n pos len bar state piece hold) s = .next
        (t.setPeer n (some { e with lastMark := some m })).rejoinTest.settle)
      ∧ (s.clock.isSet = true → (o.natAbs : Int) ≤ s.options.capture →
          exec (.markFrame u n pos len bar state piece hold) s = .next
            ((t.setPeer n (some { e with lastMark := some { m with offset := some o, consumed := false } })).setClock
              { s.clock with marks := s.clock.marks ++ [{ peer := n, outlier := false, sign := signOf o }] }).settle)

/-- A rejoining station whose position is set takes a mark beyond the capture range as an outlier, counted, raised and noted. It counts a mark of another piece or another state as unusable, whether or not its position is set; the mark stands as the peer's last, and where the position is unset the reference is tested (R28, R29, R41). -/
def Claims.MarkIsJudgedInRejoining : Prop :=
  ∀ (s : State) (u : Nat) (n : StationNo) (pos : BitVec 32) (len : BitVec 24) (bar : BitVec 16) (state piece hold : Byte),
    s.hears u n 0x2 → s.station.state = .rejoining →
    let t := s.heard u n
    let e : RosterEntry := { refreshed s.options (s.at u) n (s.peer n) with
      announced := StationState.ofCode state
      piece := if piece = 0xFF then .none else if h : piece.toNat < 16 then .piece ⟨piece.toNat, h⟩ else .unknown }
    let m : LastMark :=
      { pm := pos.toInt, lm := len.toNat, state := state, piece := piece, received := s.at u, offset := none, consumed := true }
    let o := pos.toInt - t.position
    let usable := s.station.activePiece.isSome = true ∧ piece = pieceByte s.station.activePiece ∧ (state = 3 ∨ state = 5)
    let judged := t.setPeer n (some { e with lastMark := some m, unusable := step16 e.unusable })
    (s.clock.isSet = true → usable → s.options.capture < (o.natAbs : Int) →
      exec (.markFrame u n pos len bar state piece hold) s = .next
        (((t.setPeer n (some { e with lastMark := some { m with offset := some o }, outliers := step16 e.outliers })).setClock
          { s.clock with marks := s.clock.marks ++ [{ peer := n, outlier := true, sign := signOf o }] }).raise
            srcOutlier n.val).settle)
      ∧ (s.clock.isSet = true → ¬usable → exec (.markFrame u n pos len bar state piece hold) s = .next judged.settle)
      ∧ (s.clock.isSet = false → ¬usable →
          exec (.markFrame u n pos len bar state piece hold) s = .next judged.rejoinTest.settle)

/-- Any other MARK of a peer, where the station is in no playing state, is kept as the peer's last mark and does nothing else (R3, R6, R17, R19, R28). -/
def Claims.OtherMarksAreRecorded : Prop :=
  ∀ (s : State) (u : Nat) (n : StationNo) (pos : BitVec 32) (len : BitVec 24) (bar : BitVec 16) (state piece hold : Byte),
    s.hears u n 0x2 →
    s.station.state = .halted ∨ s.station.state = .service ∨ (s.station.state = .ready ∧ state ≠ 3 ∧ state ≠ 5)
      ∨ (s.station.state = .listening ∧ state ≠ 3 ∧ state ≠ 5 ∧ state ≠ 6)
      ∨ ((s.station.state = .ready ∨ s.station.state = .listening)
        ∧ ∀ (p : Piece) (a k : Nat), piece.toNat = p.val → s.parts[p] ≠ .valid a k) →
    exec (.markFrame u n pos len bar state piece hold) s = .next
      ((s.heard u n).setPeer n (some { refreshed s.options (s.at u) n (s.peer n) with
        announced := StationState.ofCode state
        piece := if piece = 0xFF then .none else if h : piece.toNat < 16 then .piece ⟨piece.toNat, h⟩ else .unknown
        lastMark := some { pm := pos.toInt, lm := len.toNat, state := state, piece := piece, received := s.at u,
                           offset := none, consumed := true } }))

/-- The rejoin test establishes the reference in REJOINING with the position unset, when at least N stations have qualifying marks: N is the number of stations that announce COUNTIN or PLAYING and the active piece, at least 1, and 2 where it is more; a mark qualifies that shows the same and is no older than mark_age times its beat length (R41). -/
def Claims.ReferenceIsEstablishedAfterNMarks : Prop :=
  ∀ s : State,
    let plays := fun n : StationNo => match s.peer n, s.station.activePiece with
      | some e, some p => (e.announced == some .countin || e.announced == some .playing) && e.piece == .piece p
      | _, _ => false
    let marked := fun n : StationNo => match (s.peer n).bind RosterEntry.lastMark with
      | some m => (m.state == 3 || m.state == 5) && m.piece == pieceByte s.station.activePiece
          && decide (s.now - m.received ≤ s.options.markAge * m.lm)
      | none => false
    let n := (allStations.filter plays).length
    s.rejoinTest = (if s.station.state = .rejoining ∧ s.clock.isSet = false ∧ 1 ≤ n
        ∧ min 2 n ≤ (allStations.filter fun k => plays k && marked k).length then s.establish else s)

/-- The reference: the qualifying marks carried forward to now and averaged by their weights, 1 at least, give the position; their beat lengths so averaged give L and T_score; B, Pb and Pf follow from them, the meter stands at bar 0, the entry threshold a beat or more ahead, no offset is left to use, and the scan for the entry bar begins, from the part's first record with bar 1 at position 0 and nothing noted (R42, R46, R58; a mark with L = 0 is left out, log 18). -/
def Claims.ReferenceIsTheWeightedMean : Prop :=
  ∀ s : State,
    let ms := allStations.filterMap fun n => match s.peer n with
      | some e => (s.qualifyingMark e).map fun m => (max (followWeight s.options n e : Int) 1, m)
      | none => none
    let w := (ms.map fun m => m.1).sum
    let ref := rhaz (ms.map fun m => m.1 * (m.2.pm + rhu ((s.now - m.2.received) * 7680) m.2.lm)).sum w
    let t := s.establish
    (∀ m ∈ ms, m.2.lm ≠ 0) →
      t.clock = { s.clock with
          isSet := true, pf := ref, pb := 7680 * (ref / 7680), b := s.now - rhu ((ref - 7680 * (ref / 7680)) * t.clock.l) 7680
          l := clamp 180000 2200000 (rhu (ms.map fun m => m.1 * m.2.lm).sum w), tScore := clamp 200000 2000000 t.clock.l
          d := 0, bpb := s.options.defaultBpb, beatInBar := 1, bar := 0, marks := [], entryBar := none, selfOutliers := 0
          entryThreshold := t.clock.entryThreshold }
        ∧ (∃ th, t.clock.entryThreshold = some th ∧ th % 7680 = 0 ∧ ref + 7680 ≤ th ∧ th < ref + 15360)
        ∧ (∀ n e m o, t.peer n = some e → e.lastMark = some m → m.offset = some o → m.consumed = true)
        ∧ t.reader.state = .scanning
        ∧ (∀ p a k, s.station.activePiece = some p → s.parts[p] = .valid a k → s.scanBegun t a k .entry)
        ∧ t.rotor = { s.rotor with window := 0 }
        ∧ s.changesOnly [.clock, .roster, .reader, .rotor] t

/-! ## Service requests -/

/-- A request for another station refreshes the roster alone (R171). -/
def Claims.RequestsForOthersAreNotTaken : Prop :=
  ∀ (s : State) (u : Nat) (n : StationNo) (c : Instr), s.hears u n 0x9 → serviceRequestOf n c = some u →
    serviceTarget c ≠ some (stationByte s.station.own) → exec c s = .next (s.heard u n)

/-- While the handler is occupied, every request for this station is answered BUSY and does nothing (R171, R14). -/
def Claims.BusyHandlerAnswersBusy : Prop :=
  ∀ (s : State) (u : Nat) (n : StationNo) (c : Instr) (addr : BitVec 16), s.hears u n 0x9 → s.handler ≠ .unoccupied →
    serviceRequestOf n c = some u → serviceTarget c = some (stationByte s.station.own) → serviceAddress c = some addr →
    exec c s = .next (s.replied u n .busy addr 0)

/-- READ_STORE answers with the eight bytes from its address on; an address above 65,528 gives RANGE (R171, R172). -/
def Claims.ReadStoreAnswersTheBytes : Prop :=
  ∀ (s : State) (u : Nat) (n : StationNo) (addr : BitVec 16), s.hears u n 0x9 → s.handler = .unoccupied →
    exec (.readStore u n (stationByte s.station.own) addr) s = .next
      (if addr.toNat ≤ 65528 then
        s.replied u n .done addr (dataOf ((List.range 8).map fun k => s.store.read (addr.toNat + k)))
      else s.replied u n .range addr 0)

/-- PROGRAM_STORE and ERASE_SECTOR: refused outside SERVICE, at an address that is not a multiple of 8 (program), and in a protected sector, in this order; accepted, they occupy the handler for 80 µs and 20 ms (R170 to R173). That a program at an address from 65,529 on is tested for alignment and not for range is the model's choice (log 34). -/
def Obligations.ProgramAndEraseAreTakenInService : Prop :=
  ∀ (s : State) (u : Nat) (n : StationNo) (addr : BitVec 16) (data : BitVec 64), s.hears u n 0x9 → s.handler = .unoccupied →
    exec (.programStore u n (stationByte s.station.own) addr data) s = .next
        (if s.station.state ≠ .service then s.replied u n .wrongState addr 0
        else if addr.toNat % 8 ≠ 0 then s.replied u n .align addr 0
        else if s.options.protectStart ≤ addr.toNat / 1024 then s.replied u n .protectedSector addr 0
        else (s.heard u n).setHandler (.programming addr.toNat data n (s.at u + 80)))
      ∧ exec (.eraseSector u n (stationByte s.station.own) addr) s = .next
        (if s.station.state ≠ .service then s.replied u n .wrongState addr 0
        else if s.options.protectStart ≤ addr.toNat / 1024 then s.replied u n .protectedSector addr 0
        else (s.heard u n).setHandler (.erasing addr.toNat n (s.at u + 20000)))

/-- A program ends after its 80 µs: each of its eight bytes holds the AND of its old value and the data byte, every other byte stands, and the reply carries the word read back, DONE where it is the data and FAILED where it is not (R167, R172). -/
def Claims.ProgramCompleteAndsTheBytes : Prop :=
  ∀ (s : State) (u : Nat) (addr : Nat) (data : BitVec 64) (req : StationNo) (ends : Time), s.steady = true →
    s.storeCanonical → s.handler = .programming addr data req ends →
    if ends ≤ s.at u then
      ∃ m : Memory,
        (∀ a, m.read a = if addr ≤ a ∧ a < addr + 8 then s.store.read a &&& dataByte data (a - addr) else s.store.read a)
        ∧ exec (.programComplete u) s = .next
            (({ s.advance u with store := m, handler := .unoccupied }).offer
              (.svcReply req (if m.word addr = data then .done else .failed) (BitVec.ofNat 16 addr) (m.word addr)
                false)).reportThenLeave
    else exec (.programComplete u) s = .next (s.advance u)

/-- An erase ends after its 20 ms: every byte of the sector reads 0xFF, every other byte stands, and the reply is DONE with the sector number (R167, R173). -/
def Claims.EraseCompleteSetsTheSector : Prop :=
  ∀ (s : State) (u : Nat) (addr : Nat) (req : StationNo) (ends : Time), s.steady = true →
    s.handler = .erasing addr req ends →
    if ends ≤ s.at u then
      ∃ m : Memory,
        (∀ a, m.read a = if a / 1024 = addr / 1024 then 0xFF else s.store.read a)
        ∧ exec (.eraseComplete u) s = .next
            (({ s.advance u with store := m, handler := .unoccupied }).offer
              (.svcReply req .done (BitVec.ofNat 16 addr) (dataOf [BitVec.ofNat 8 (addr / 1024)]) false)).reportThenLeave
    else exec (.eraseComplete u) s = .next (s.advance u)

/-- With no operation of its kind running, PROGRAM_COMPLETE and ERASE_COMPLETE pass the time alone (log 2). -/
def Claims.CompletionsNeedTheirOperation : Prop :=
  ∀ (s : State) (u : Nat), s.steady = true →
    ((∀ a d r e, s.handler ≠ .programming a d r e) → exec (.programComplete u) s = .next (s.advance u))
      ∧ ((∀ a r e, s.handler ≠ .erasing a r e) → exec (.eraseComplete u) s = .next (s.advance u))

/-- ENTER_SERVICE: in READY and HALTED a reply of status DONE is offered and the station enters SERVICE with the reader idle; every pulse in progress ends now, its recovery counted from the width driven, and its confirm record is handed over as cut; the port holds the reply and at most a spontaneous REPORT beside it. In any other state WRONG_STATE (R13, R91, R92, R94, R107, R162, R174). Several records are handed over by ascending channel number (model's choice, log 66), where the list is full or a window has opened as well (R107, R113). -/
def Claims.EnterServiceFromReadyAndHalted : Prop :=
  ∀ (s : State) (u : Nat) (n : StationNo) (addr : BitVec 16), s.hears u n 0x9 → s.handler = .unoccupied →
    if s.station.state = .ready ∨ s.station.state = .halted then
      let t₀ := (s.heard u n).offer (.svcReply n .done addr 0 false)
      ∃ t, exec (.enterService u n (stationByte s.station.own) addr) s = .next t
        ∧ t.station = { s.station with state := .service }
        ∧ t.reader.state = .idle ∧ t.reader.timeline = []
        ∧ (t.port = t₀.port ∨ ∃ x, t.port = (t₀.offer (.report (some x) none)).port)
        ∧ (∀ c, (t.channel c).pulse = none)
        ∧ (∀ c p, (s.channel c).pulse = some p →
            let rest := (s.settings c).recBase + trunc ((s.at u - p.start) * (s.settings c).recRatio) 16
            (t.channel c).recoveryEnd = if rest = 0 then none else some (s.at u + rest))
        ∧ (s.confirm.length + s.cutRecords.length ≤ 32 → (∀ r ∈ s.cutRecords, s.at u < r.opens) →
            t.confirm = s.cutRecords.foldl (fun xs r => insertConfirm r xs) s.confirm)
        ∧ t.recordsAs (s.advance u).pulsesCut
        ∧ s.changesOnly [.now, .station, .roster, .port, .reader, .channels, .inputs, .confirm, .attention] t
    else exec (.enterService u n (stationByte s.station.own) addr) s = .next (s.replied u n .wrongState addr 0)

/-- LEAVE_SERVICE in SERVICE occupies the handler and offers its reply, the reset following when the reply has left the queue, at once if it was refused; elsewhere WRONG_STATE (R14). -/
def Claims.LeaveServiceWaitsForItsReply : Prop :=
  ∀ (s : State) (u : Nat) (n : StationNo) (addr : BitVec 16), s.hears u n 0x9 → s.handler = .unoccupied →
    exec (.leaveService u n (stationByte s.station.own) addr) s = .next
      (if s.station.state = .service then
        (((s.heard u n).setHandler (.leaving false)).offer (.svcReply n .done addr 0 true)).reportThenLeave
      else s.replied u n .wrongState addr 0)

/-- PART_RESET resets the part at its frame end with cause SERVICE and without a reply (R174). The straps are read at the level kept (log 8), and the receive stage waits (log 70), both the model's choices. -/
def Claims.PartResetResetsAtOnce : Prop :=
  ∀ (s : State) (u : Nat) (n : StationNo) (addr : BitVec 16), s.hears u n 0x9 → s.handler = .unoccupied →
    ∃ t, exec (.partReset u n (stationByte s.station.own) addr) s = .next t ∧ s.wasReset t ∧ t.station.cause = .service
      ∧ t.resetNLow = s.resetNLow ∧ t.supply = s.supply ∧ t.powered = s.powered ∧ t.straps = s.straps

/-- CLEAR_HALT takes a halted station to LISTENING with a fresh join deadline and no keepalive deadline; the reply is DONE. No unsent ANNOUNCE or spontaneous REPORT stays. In any other state WRONG_STATE (R3, R10, R12, R163, R174). That the reply is offered before they are withdrawn is the model's choice (log 87). -/
def Claims.ClearHaltEntersListening : Prop :=
  ∀ (s : State) (u : Nat) (n : StationNo) (addr : BitVec 16), s.hears u n 0x9 → s.handler = .unoccupied →
    if s.station.state = .halted then
      ∃ t, exec (.clearHalt u n (stationByte s.station.own) addr) s = .next t
        ∧ t.station = { s.station with
            state := .listening, joinDeadline := some (s.at u + s.options.presenceTimeout), keepalive := none }
        ∧ t.port.unsent = ((s.heard u n).offer (.svcReply n .done addr 0 false)).port.unsent.filter
            (fun e => !e.frame.isAnnounce && !e.frame.isSpontaneous)
        ∧ t.attention.items = s.attention.items
        ∧ s.changesOnly [.now, .station, .roster, .port, .attention] t
    else exec (.clearHalt u n (stationByte s.station.own) addr) s = .next (s.replied u n .wrongState addr 0)

/-- ENABLE_CHANNEL enables a STRIKER channel: flag and cause are cleared and its consecutive misses are 0; the stuck deadline of a stuck input is set afresh, whether or not the channel was DISABLED (log 73); where it was not, nothing else changes. DAMPER and UNUSED channels are not changed. The reply is DONE; a channel above 23 gives RANGE (R98, R106, R174). What becomes of an entry deferred on the channel (R75) is the next claim's. -/
def Claims.EnableChannelClearsTheFlag : Prop :=
  ∀ (s : State) (u : Nat) (n : StationNo) (addr : BitVec 16), s.hears u n 0x9 → s.handler = .unoccupied →
    (24 ≤ addr.toNat →
      exec (.enableChannel u n (stationByte s.station.own) addr) s = .next (s.replied u n .range addr 0))
      ∧ ∀ c : Chan, addr.toNat = c.val →
          ((s.settings c).kind ≠ .striker →
            exec (.enableChannel u n (stationByte s.station.own) addr) s = .next (s.replied u n .done addr 0))
            ∧ ((s.settings c).kind = .striker → (s.channel c).disabled = none →
                let x := s.input (s.settings c).input
                exec (.enableChannel u n (stationByte s.station.own) addr) s = .next
                  ((((s.heard u n).setChannel c { s.channel c with misses := 0 }).setInput (s.settings c).input
                    (if x.stuck = true then { x with stuckDeadline := some (s.at u + 200000) } else x)).offer
                    (.svcReply n .done addr 0 false)).reportThenLeave)
            ∧ ((s.settings c).kind = .striker → (s.channel c).disabled ≠ none →
                (∀ e ∈ s.planner.queue, e.deferredOn [c] = false) →
                let x := s.input (s.settings c).input
                exec (.enableChannel u n (stationByte s.station.own) addr) s = .next
                  ((((s.heard u n).setChannel c { s.channel c with disabled := none, misses := 0 }).setInput
                    (s.settings c).input
                    (if x.stuck = true then { x with stuckDeadline := some (s.at u + 200000) } else x)).offer
                    (.svcReply n .done addr 0 false)).reportThenLeave)
            ∧ ((s.settings c).kind = .striker →
                ∃ t, exec (.enableChannel u n (stationByte s.station.own) addr) s = .next t
                  ∧ (t.channel c).disabled = none ∧ (t.channel c).misses = 0 ∧ (t.channel c).trim = (s.channel c).trim
                  ∧ (t.channel c).pulse = (s.channel c).pulse)

/-- ENABLE_CHANNEL of a DISABLED channel and an entry deferred on it, the only one: its arming deferred flag is cleared. Where the station's state does not allow arming, or the entry is not projected, it stays PLANNED. Where it may arm, it is due at once: on the channel enabled, its preferred one, it arms at its fire time if the channel is free by then; where every usable candidate holds an armed strike it is deferred again; where the enabled channel is its one candidate and is free too late, it arms when the channel is free, or is dropped with DROPPED_LATE beyond late_tol (R75, R76, R77, R98). These are for a queue in which no earlier entry is due. -/
def Claims.EnableReleasesTheDeferredEntry : Prop :=
  ∀ (s : State) (u : Nat) (n : StationNo) (addr : BitVec 16) (c : Chan) (pre post : List StrikeEntry) (y : StrikeEntry),
    s.hears u n 0x9 → s.handler = .unoccupied → addr.toNat = c.val → (s.settings c).kind = .striker →
    (s.channel c).disabled ≠ none → s.strikesOrdered → s.planner.queue = pre ++ y :: post → y.phase = .planned true →
    y.preferred = c ∨ y.other = some c → (∀ x ∈ pre ++ post, x.deferredOn [c] = false) → 0 ≤ s.options.lateTol →
    let x := s.input (s.settings c).input
    let f := s.figures y.preferred y.velocity
    let fire := s.clock.timeOf y.pos - f.flight
    let queued := fun e : StrikeEntry => (((s.heard u n).setChannel c { s.channel c with disabled := none, misses := 0 }).setInput
      (s.settings c).input (if x.stuck = true then { x with stuckDeadline := some (s.at u + 200000) } else x)).setPlanner
      { s.planner with queue := pre ++ e :: post }
    let armed := fun effective : Time => ({ y with
      phase := .armed c fire effective, width := f.width, flight := f.flight, weak := f.weak } : StrikeEntry)
    let arms := fun effective : Time =>
      if f.weak = true then (queued (armed effective)).raise srcWeak c.val else queued (armed effective)
    let answered := fun t : State => Host.Outcome.next (t.offer (.svcReply n .done addr 0 false)).reportThenLeave
    let go := exec (.enableChannel u n (stationByte s.station.own) addr) s
    let start := max (s.freeAt u c) (s.at u)
    (s.allowsArming = false ∨ y.projected = none → go = answered (queued { y with phase := .planned false }))
      ∧ (s.allowsArming = true → y.projected ≠ none → (∀ z ∈ pre, (s.advance u).armDue z = false) →
          (y.preferred = c → s.armedOn c = none → s.freeAt u c ≤ fire → s.at u ≤ fire → go = answered (arms fire))
          ∧ (s.armedOn c ≠ none → (∀ d ∈ y.candidates, (s.channel d).disabled = none → s.armedOn d ≠ none) →
              go = answered (queued
                { y with phase := .planned true, width := f.width, flight := f.flight, weak := f.weak }))
          ∧ (y.preferred = c → y.other = none → s.armedOn c = none → fire < s.freeAt u c →
              (start - fire ≤ s.options.lateTol → go = answered (arms start))
                ∧ (s.options.lateTol < start - fire → ∃ t, go = .next t
                    ∧ (t.channel c).dropped = step16 (s.channel c).dropped
                    ∧ t.item srcDroppedLate = some (raisedItem (s.item srcDroppedLate) c.val (s.at u))
                    ∧ ∀ z ∈ t.planner.queue, z.sameKey y = false)))

/-- ENABLE_CHANNEL of a DISABLED channel that two strikes want, one of them deferred on it and one earlier in the queue due to arm at this very moment: they arm in queue order, so the earlier one takes the channel and the deferred one waits again behind it (R73, R75). -/
def Claims.EnableArmsInQueueOrder : Prop :=
  ∀ (s : State) (u : Nat) (n : StationNo) (addr : BitVec 16) (c : Chan) (pre mid post : List StrikeEntry) (x y : StrikeEntry),
    s.hears u n 0x9 → s.handler = .unoccupied → addr.toNat = c.val → (s.settings c).kind = .striker →
    (s.channel c).disabled ≠ none → s.strikesOrdered → s.planner.queue = pre ++ x :: mid ++ y :: post →
    x.preferred = c → (s.advance u).armDue x = true → (∀ z ∈ pre ++ mid, (s.advance u).armDue z = false) →
    y.phase = .planned true → y.preferred = c → y.other = none → y.projected ≠ none →
    (∀ z ∈ pre ++ mid ++ post, z.deferredOn [c] = false) → s.armedOn c = none → (s.channel c).pulse = none →
    (s.channel c).recoveryEnd = none → 0 ≤ s.options.lateTol →
    let armed := { s.armedBy s x with projected := x.projected }
    s.at u ≤ s.fireBy s x →
    ∃ t, exec (.enableChannel u n (stationByte s.station.own) addr) s = .next t
      ∧ armed ∈ t.planner.queue
      ∧ ∃ z ∈ t.planner.queue, z.sameKey y = true ∧ z.phase = .planned true

/-- CHECK with n from 1 to 7 raises CHECK_n, source 26 + n, with the requester as detail; every CHECK is answered DONE (R165, R174). -/
def Claims.CheckRaisesItsSource : Prop :=
  ∀ (s : State) (u : Nat) (n : StationNo) (addr : BitVec 16) (k : Byte), s.hears u n 0x9 → s.handler = .unoccupied →
    (∀ x : Source, x.val + 1 = 26 + k.toNat → 1 ≤ k.toNat →
      exec (.check u n (stationByte s.station.own) addr k) s = .next
        (((s.heard u n).raise x n.val).offer (.svcReply n .done addr 0 false)).reportThenLeave)
      ∧ (k = 0 ∨ 7 < k.toNat →
          exec (.check u n (stationByte s.station.own) addr k) s = .next (s.replied u n .done addr 0))

/-- READ_ROSTER answers with the three pages of a peer's entry, all zero where there is none; a page above 2 or a station above 31 gives RANGE (R175; of a last mark that is absent, position, length and state are free values, log 71). -/
def Claims.ReadRosterAnswersThePages : Prop :=
  ∀ (s : State) (u : Nat) (n : StationNo) (addr : BitVec 16), s.hears u n 0x9 → s.handler = .unoccupied →
    let page := addr.toNat / 256
    let k := addr.toNat % 256
    (2 < page ∨ 31 < k →
      exec (.readRoster u n (stationByte s.station.own) addr) s = .next (s.replied u n .range addr 0))
      ∧ (page ≤ 2 → ∀ m : StationNo, m.val = k →
          let ask := exec (.readRoster u n (stationByte s.station.own) addr) s
          ((s.heard u n).peer m = none → ask = .next (s.replied u n .done addr 0))
            ∧ ∀ e, (s.heard u n).peer m = some e →
              let counts := fieldBytes e.outliers 2 ++ fieldBytes e.unusable 2
              (page = 0 → ask = .next (s.replied u n .done addr (dataOf
                [1, (match e.cls with | some c => c.code | none => 0), (if e.pinned = true then 1 else 0),
                  (match e.announced with | some st => st.code | none => 0xFF),
                  (match e.piece with | .unknown => 0xFE | .none => 0xFF | .piece p => BitVec.ofNat 8 p.val),
                  e.frames.extractLsb' 8 8, e.frames.extractLsb' 0 8,
                  (match e.lastMark with
                  | none => 0
                  | some mk => match mk.offset with
                    | none => 1
                    | some _ => if mk.consumed = true then 3 else 2)])))
                ∧ (page = 1 → (∀ mk, e.lastMark = some mk →
                      ask = .next (s.replied u n .done addr (dataOf (counts ++ fieldBytes (BitVec.ofInt 32 mk.pm) 4))))
                    ∧ (e.lastMark = none → ∃ free : BitVec 32,
                      ask = .next (s.replied u n .done addr (dataOf (counts ++ fieldBytes free 4)))))
                ∧ (page = 2 → (∀ mk, e.lastMark = some mk → ask = .next (s.replied u n .done addr
                      (dataOf (fieldBytes (offsetBits (s.at u) mk) 4 ++ fieldBytes (BitVec.ofInt 24 mk.lm) 3 ++ [mk.state]))))
                    ∧ (e.lastMark = none → ∃ (len : BitVec 24) (st : Byte), ask = .next (s.replied u n .done addr
                      (dataOf (([0, 0, 0, 0] : List Byte) ++ fieldBytes len 3 ++ [st]))))))

/-- READ_COUNTERS answers with the port's counters, the station's state and one source's item; any other address gives RANGE (R157, R175). -/
def Claims.ReadCountersAnswersThePages : Prop :=
  ∀ (s : State) (u : Nat) (n : StationNo) (addr : BitVec 16), s.hears u n 0x9 → s.handler = .unoccupied →
    let ask := exec (.readCounters u n (stationByte s.station.own) addr) s
    (addr.toNat / 256 = 0 → ask = .next (s.replied u n .done addr
      (dataOf (fieldBytes s.port.crcErrors 2 ++ fieldBytes s.port.framingErrors 2 ++ fieldBytes s.port.unknownKind 2
        ++ fieldBytes s.port.arbitrationLosses 2))))
      ∧ (addr.toNat / 256 = 1 → ask = .next (s.replied u n .done addr
          (dataOf (fieldBytes s.port.txFailures 2 ++ fieldBytes s.port.txOverflow 2
            ++ [s.station.state.code, s.station.cause.code, pieceByte s.station.activePiece,
              BitVec.ofNat 8 s.port.length]))))
      ∧ (∀ x : Source, addr.toNat / 256 = 2 → addr.toNat % 256 = x.val + 1 → ask = .next (s.replied u n .done addr
          (dataOf (match s.item x with
            | some it => [1, BitVec.ofNat 8 (effectiveLevel s.options x), BitVec.ofNat 8 it.count]
                ++ fieldBytes it.firstDetail 2 ++ fieldBytes it.timeOfFirst 2
                ++ [BitVec.ofNat 8 (attentionPlace s.options x)]
            | none => [0, BitVec.ofNat 8 (effectiveLevel s.options x), 0, 0, 0, 0, 0,
                BitVec.ofNat 8 (attentionPlace s.options x)]))))
      ∧ (3 ≤ addr.toNat / 256 ∨ (addr.toNat / 256 = 2 ∧ (addr.toNat % 256 = 0 ∨ 33 < addr.toNat % 256)) →
          ask = .next (s.replied u n .range addr 0))

/-- READ_CHANNEL answers with the three pages of a channel as it stands at that moment; a page above 2 or a channel above 23 gives RANGE (R102, R175; the sensor input of an UNUSED channel is a free value, log 20). -/
def Claims.ReadChannelAnswersThePages : Prop :=
  ∀ (s : State) (u : Nat) (n : StationNo) (addr : BitVec 16), s.hears u n 0x9 → s.handler = .unoccupied →
    let page := addr.toNat / 256
    let ask := exec (.readChannel u n (stationByte s.station.own) addr) s
    (2 < page ∨ 23 < addr.toNat % 256 → ask = .next (s.replied u n .range addr 0))
      ∧ ∀ c : Chan, c.val = addr.toNat % 256 →
          (page = 0 → (s.settings c).kind ≠ .unused → ask = .next (s.replied u n .done addr (dataOf
            ([(s.settings c).kind.code, ((s.advance u).channelState c).code,
              (match (s.channel c).disabled with | none => 0 | some .misses => 1 | some .stuck => 2),
              (if (s.armedOn c).isSome = true then 1 else 0)]
              ++ fieldBytes (BitVec.ofInt 16 (s.channel c).trim) 2
              ++ [BitVec.ofNat 8 (s.channel c).misses, BitVec.ofNat 8 (s.settings c).input.val]))))
            ∧ (page = 0 → (s.settings c).kind = .unused → ∃ free : Byte, ask = .next (s.replied u n .done addr (dataOf
                (([0, 0, (match (s.channel c).disabled with | none => 0 | some .misses => 1 | some .stuck => 2),
                  (if (s.armedOn c).isSome = true then 1 else 0)] : List Byte)
                  ++ fieldBytes (BitVec.ofInt 16 (s.channel c).trim) 2
                  ++ [BitVec.ofNat 8 (s.channel c).misses, free]))))
            ∧ (page = 1 → ask = .next (s.replied u n .done addr (dataOf
                (fieldBytes (s.channel c).fired 2 ++ fieldBytes (s.channel c).confirmed 2 ++ fieldBytes (s.channel c).missed 2
                  ++ fieldBytes (s.channel c).dropped 2))))
            ∧ (page = 2 → ask = .next (s.replied u n .done addr (dataOf (fieldBytes (s.channel c).weak 2))))

/-- The state READ_CHANNEL reports: of a STRIKER channel the first that holds of DISABLED, DRIVING, RECOVERING, ARMED and IDLE; of a DAMPER channel its damper state; of an UNUSED channel IDLE. A channel holds an armed strike where an entry of the strike queue is ARMED on it (R87, R102, R175). -/
def Claims.ChannelStatesAreThoseOfTheTable : Prop :=
  (∀ (s : State) (c : Chan),
    let ch := s.channel c
    let x := s.channelState c
    ((s.armedOn c).isSome = true ↔ ∃ e ∈ s.planner.queue, ∃ written effective, e.phase = .armed c written effective)
      ∧ ((s.settings c).kind = .striker →
          (ch.disabled ≠ none → x = .disabled)
            ∧ (ch.disabled = none → ch.pulse ≠ none → x = .driving)
            ∧ (ch.disabled = none → ch.pulse = none → (∃ r, ch.recoveryEnd = some r ∧ s.now < r) → x = .recovering)
            ∧ (ch.disabled = none → ch.pulse = none → (∀ r, ch.recoveryEnd = some r → r ≤ s.now) →
                x = if (s.armedOn c).isSome = true then .armed else .idle))
      ∧ ((s.settings c).kind = .unused → x = .idle)
      ∧ ((s.settings c).kind = .damper → x = match (s.damper c).state with
          | .lowered => .lowered
          | .raising => .raising
          | .raised => .raised
          | .lowering => .lowering))
    ∧ [ChannelState.idle, .armed, .driving, .recovering, .disabled, .lowered, .raising, .raised, .lowering].map
        ChannelState.code = [0, 1, 2, 3, 4, 5, 6, 7, 8]
    ∧ [ChannelKind.unused, .striker, .damper].map ChannelKind.code = [0, 1, 2]

/-- A request whose operation code is not in the table is answered RANGE (R171). -/
def Claims.UnknownOperationAnswersRange : Prop :=
  ∀ (s : State) (u : Nat) (n : StationNo) (op : Byte) (addr : BitVec 16), s.hears u n 0x9 → s.handler = .unoccupied →
    exec (.unknownSvcOperation u n (stationByte s.station.own) op addr) s = .next (s.replied u n .range addr 0)

/-! ## The cue port -/

/-- A frame offered to the transmit queue replaces the unsent MARK, is placed behind its class, displaces the last unsent frame of a greater class, or is refused and counted in tx_overflow (R152, R153). -/
def Obligations.OfferedFrameFindsItsPlace : Prop :=
  ∀ (p : Port) (e : TxEntry), p.ordered →
    let marks := p.unsent.any fun x => x.frame.isMark
    (e.frame.isMark = true ∧ marks = true →
      (p.offer e).refused = false ∧ (p.offer e).victim = none ∧ e ∈ (p.offer e).port.unsent
        ∧ (p.offer e).port.unsent.length = p.unsent.length
        ∧ ∀ x ∈ p.unsent, x.frame.isMark = false → x ∈ (p.offer e).port.unsent)
      ∧ ((e.frame.isMark = false ∨ marks = false) → p.length < 8 →
          (p.offer e).refused = false ∧ (p.offer e).victim = none
            ∧ (p.offer e).port = { p with unsent := (p.unsent.filter fun x => x.cls ≤ e.cls) ++ e :: p.unsent.filter fun x => e.cls < x.cls })
      ∧ ((e.frame.isMark = false ∨ marks = false) → p.length = 8 → ∀ v, p.unsent.getLast? = some v → e.cls < v.cls →
          (p.offer e).refused = false ∧ (p.offer e).victim = some v
            ∧ (p.offer e).port = { p with unsent := (p.unsent.dropLast.filter fun x => x.cls ≤ e.cls) ++ e :: p.unsent.dropLast.filter fun x => e.cls < x.cls })
      ∧ ((e.frame.isMark = false ∨ marks = false) → p.length = 8 → (∀ v ∈ p.unsent, v.cls ≤ e.cls) →
          (p.offer e).refused = true ∧ (p.offer e).victim = none
            ∧ (p.offer e).port = { p with txOverflow := step16 p.txOverflow })

/-- A spontaneous REPORT is offered exactly when R162 allows: in a state other than OFFLINE and LISTENING, with no spontaneous REPORT of this station unsent or being sent, with the hold-off flag clear, and with a pending item that qualifies, its effective level at or above report_threshold or 7. It is bound to the qualifying item that stands first in the attention order. Nothing but the port, the hold-off flag and the handler that waits for its reply can change by it (R162, R163). -/
def Claims.ReportIsOfferedWhenAllowed : Prop :=
  ∀ s : State,
    (s.station.state = .offline ∨ s.station.state = .listening ∨ s.port.hasSpontaneous = true ∨ s.attention.holdOff = true →
      s.offerReport = s)
      ∧ (s.station.state ≠ .offline → s.station.state ≠ .listening → s.port.hasSpontaneous = false →
          s.attention.holdOff = false →
          s.offerReport = (match s.firstQualifying with
            | some x => s.offer (.report (some x) none)
            | none => s))
      ∧ (s.port.hasSpontaneous = true ↔ (∃ e ∈ s.port.unsent, ∃ b, e.frame = .report b none)
          ∨ ∃ a, s.port.attempt = some a ∧ ∃ b, a.entry.frame = .report b none)
      ∧ (s.firstQualifying = none ↔ ∀ x, (s.item x).isSome = true → qualifies s.options x = false)
      ∧ (∀ x, s.firstQualifying = some x → (s.item x).isSome = true ∧ qualifies s.options x = true
          ∧ ∀ y, (s.item y).isSome = true → qualifies s.options y = true → y ≠ x → attentionBefore s.options x y = true)
      ∧ (∀ x, qualifies s.options x = true ↔
          s.options.reportThreshold ≤ effectiveLevel s.options x ∨ effectiveLevel s.options x = 7)
      ∧ s.changesOnly [.port, .attention, .handler] s.offerReport ∧ s.offerReport.attention.items = s.attention.items

/-- The highest pending item is the pending item that stands first in the attention order; there is none where no item is pending (R159, R164). -/
def Claims.HighestPendingStandsFirst : Prop :=
  ∀ s : State,
    (s.highestPending = none ↔ ∀ x, s.item x = none)
      ∧ ∀ x, s.highestPending = some x →
          (s.item x).isSome = true ∧ ∀ y, (s.item y).isSome = true → y ≠ x → attentionBefore s.options x y = true

/-- The hold-off flag: an offer that displaces a frame leaves it set if that frame was a spontaneous REPORT and clear otherwise; one that is refused sets it for a spontaneous REPORT; any other offer leaves it. A withdrawal that takes a frame from the queue clears it (R153, R154, R163). -/
def Claims.HoldOffFollowsTheLostReport : Prop :=
  ∀ (s : State) (f : TxFrame),
    let r := s.port.offer { frame := f, cls := txClass s.options f, attempts := 0, queuedAt := s.now }
    ((s.offer f).port = r.port ∧ (s.offer f).attention.items = s.attention.items
        ∧ s.changesOnly [.port, .attention, .handler] (s.offer f))
      ∧ (r.refused = false → ∀ v, r.victim = some v → (s.offer f).attention.holdOff = v.frame.isSpontaneous)
      ∧ (r.refused = true → r.victim = none → (s.offer f).attention.holdOff = (f.isSpontaneous || s.attention.holdOff))
      ∧ (r.refused = false → r.victim = none → (s.offer f).attention.holdOff = s.attention.holdOff)
      ∧ ∀ p : TxFrame → Bool, (s.withdraw p).attention.holdOff = (s.attention.holdOff && !s.port.hasUnsent p)
          ∧ (s.withdraw p).port = { s.port with unsent := s.port.unsent.filter fun e => !p e.frame }

/-- A frame received with an error is counted in one counter and reaches no block, and the receive stage waits for the line to be recessive for 12 bit times; the line falls quiet at the frame end of a CRC error. After an attempt that this station abandoned nothing is counted (log 62), nor is a frame that was not taken up where it began (log 61), nor this station's own attempt; in OFFLINE nothing happens (R146, R147, R150, R155, R157). -/
def Claims.ReceiveErrorsAreCounted : Prop :=
  ∀ (s : State) (u began since : Nat), s.steady = true →
    let recessiveFrom : Time := max (since : Int) s.port.listenFrom
    let taken := fun start : Time => s.port.rx ≠ .waiting ∨ s.port.acceptFrom ≤ start
    let faults : List (Instr × Time × Port × Option Time) :=
      [(.frameCrcError ⟨u, began, since⟩, began, { s.port with crcErrors := step16 s.port.crcErrors }, some (s.at u)),
       (.frameFramingError ⟨u, began, since⟩, began, { s.port with framingErrors := step16 s.port.framingErrors }, none),
       (.frameUnknownKind ⟨u, since⟩, s.at u - 20 * s.options.bitTime,
        { s.port with unknownKind := step16 s.port.unknownKind }, none)]
    ∀ f ∈ faults,
      (s.station.state = .offline ∨ s.port.attempt.isSome = true → exec f.1 s = .next (s.advance u))
        ∧ (s.station.state ≠ .offline → s.port.attempt = none → taken f.2.1 →
            exec f.1 s = .next ((s.advance u).setPort
              { (if s.port.rx = .listening then s.port else f.2.2.1) with
                quietSince := f.2.2.2, rx := .waiting, yieldOwed := false
                acceptFrom := recessiveFrom + 12 * s.options.bitTime }))
        ∧ (s.station.state ≠ .offline → s.port.attempt = none → ¬taken f.2.1 →
            exec f.1 s = .next ((s.advance u).setPort
              { s.port with
                quietSince := none, yieldOwed := false, acceptFrom := recessiveFrom + 12 * s.options.bitTime }))

/-- The leading edge of another station's frame clears the yield; after 12 recessive bit times, by what LINE_RX has shown since the moment the port listens from, a stop bit that ended a frame among them, it begins a reception; before that the wait begins anew, and a stage that listened on after an abandoned attempt waits too. This station's own frame on the line goes on (R147, R150, R155). -/
def Claims.LeadingEdgeClearsTheYield : Prop :=
  ∀ (s : State) (u since : Nat), s.steady = true →
    exec (.frameLeadingEdge ⟨u, since⟩) s = .next
      (if s.station.state = .offline ∨ s.port.attempt.isSome = true then s.advance u
      else (s.advance u).setPort
        { s.port with
          yieldOwed := false, quietSince := none, listenFrom := s.at u, acceptFrom := s.at u + 12 * s.options.bitTime
          rx := if max (since : Int) s.port.listenFrom + 12 * s.options.bitTime ≤ s.at u then .receiving
            else if s.port.rx = .listening then .waiting else s.port.rx })

/-- An attempt begins on the head of the queue when the station is not in OFFLINE, the port is neither muted nor sending nor receiving, and the line has been recessive for 12 bit times, 20 where a yield is owed; the frame takes its payload then. Since when the line has been quiet is the later of the last frame end, what LINE_RX shows and the moment the port listens from (R147, R148, R152; log 11). -/
def Claims.AttemptBeginsAfterTheGap : Prop :=
  ∀ (s : State) (u since : Nat), s.steady = true →
    let heardFrom : Time := max (since : Int) s.port.listenFrom
    let quietFrom : Time := (s.port.quietSince.map fun q => max q heardFrom).getD heardFrom
    let gap : Time := if s.port.yieldOwed = true then 20 * s.options.bitTime else 12 * s.options.bitTime
    if s.station.state ≠ .offline ∧ s.port.mutedUntil = none ∧ s.port.attempt = none ∧ s.port.rx ≠ .receiving
        ∧ gap ≤ s.at u - quietFrom then
      match s.port.unsent with
      | e :: rest => exec (.txAttemptStart u since) s = .next ((s.advance u).setPort
          { s.port with
            unsent := rest, yieldOwed := false, rx := .waiting
            attempt := some { entry := e, payload := (s.advance u).fill e.frame, started := s.at u } })
      | [] => exec (.txAttemptStart u since) s = .next (s.advance u)
    else exec (.txAttemptStart u since) s = .next (s.advance u)

/-- What an attempt carries: a MARK the position 160 bit times on, or the hold position in HOLDING, with beat length, bar, state, piece and hold number; an ANNOUNCE the class, state, piece and cause; a REPORT its item as it stands and, where it answers a QUERY, the requester; the other frames what they were queued with. A MARK in a state other than COUNTIN, PLAYING and HOLDING carries that state and the clock as it stands (R12, R27, R152, R161; log 47). -/
def Claims.AttemptCarriesTheOwnersValues : Prop :=
  ∀ s : State,
    (s.fill .announce = .announce s.options.cls.code s.station.state.code (pieceByte s.station.activePiece) s.station.cause.code)
      ∧ (∀ p : Int, s.station.state ≠ .holding → p = s.position + trunc (160 * s.options.bitTime * 7680) s.clock.l →
          -2147483648 ≤ p → p ≤ 2147483647 →
          s.fill .mark = .mark (BitVec.ofInt 32 p) (BitVec.ofInt 24 s.clock.l) (BitVec.ofNat 16 s.clock.bar)
            s.station.state.code (pieceByte s.station.activePiece) 0)
      ∧ (∀ h, s.station.state = .holding → s.clock.hold = some h → -2147483648 ≤ h.pos → h.pos ≤ 2147483647 →
          s.fill .mark = .mark (BitVec.ofInt 32 h.pos) (BitVec.ofInt 24 s.clock.l) (BitVec.ofNat 16 s.clock.bar) 6
            (pieceByte s.station.activePiece) (BitVec.ofNat 8 h.number))
      ∧ (∀ x it, s.item x = some it → s.fill (.report (some x) none) =
          .report (BitVec.ofNat 8 (x.val + 1)) (BitVec.ofNat 8 (effectiveLevel s.options x)) (BitVec.ofNat 8 it.count)
            it.firstDetail 0)
      ∧ (∀ x it (n : StationNo), s.item x = some it → s.fill (.report (some x) (some n)) =
          .report (BitVec.ofNat 8 (x.val + 1)) (BitVec.ofNat 8 (effectiveLevel s.options x)) (BitVec.ofNat 8 it.count)
            it.firstDetail (0x80 ||| BitVec.ofNat 8 n.val))
      ∧ (∀ n : StationNo, s.fill (.report none (some n)) = .report 0 0 0 0 (0x80 ||| BitVec.ofNat 8 n.val))
      ∧ (∀ a b c d, s.fill (.start a b c d) = .start a b c d) ∧ (∀ r, s.fill (.stop r) = .stop r)
      ∧ (∀ a b, s.fill (.release a b) = .release a b)
      ∧ ∀ (n : StationNo) st a d l, s.fill (.svcReply n st a d l) = .svcReply (BitVec.ofNat 8 n.val) st.code a d

/-- A station that loses arbitration on a data bit of its precedence character that it sent recessive keeps its frame in its place, counts the loss and receives (R149); a MARK that a newer unsent MARK has replaced meanwhile leaves the queue (log 46). The moment stands for the bits it lies in, the ends of a bit included (log 63). -/
def Claims.ArbitrationLossKeepsTheFrame : Prop :=
  ∀ (s : State) (u : Nat) (a : Attempt), s.steady = true → s.port.attempt = some a →
    let recessive := fun k : Nat => (BitVec.ofNat 8 (a.payload.cls * 32 + s.station.own.val)).getLsbD (8 - k) = true
    let inBit := fun k : Nat => a.started + k * s.options.bitTime ≤ s.at u ∧ s.at u ≤ a.started + (k + 1) * s.options.bitTime
    ((∃ k, 1 ≤ k ∧ k ≤ 8 ∧ recessive k ∧ inBit k) →
      exec (.arbitrationLoss u) s = .next ((s.advance u).setPort
        { s.port with
          attempt := none, arbitrationLosses := step16 s.port.arbitrationLosses, rx := .receiving
          unsent :=
            if a.entry.frame.isMark = true ∧ (s.port.unsent.any fun x => x.frame.isMark) = true then s.port.unsent
            else reinsertTx a.entry s.port.unsent }))
      ∧ ((∀ k, 1 ≤ k → k ≤ 8 → recessive k → ¬inBit k) → exec (.arbitrationLoss u) s = .next (s.advance u))

/-- A transmit error counts on the frame and on the port; the station listens on to the end of what stands on the line; below four failures the frame keeps its place, at the fourth it has left the queue and is counted in tx_failures; at the sixteenth failure in a row the port is muted for 1,000,000 µs and LINE_FAULT is raised with the frame's kind. A spontaneous REPORT that is dropped sets the hold-off flag, any other frame that is dropped clears it. Then a REPORT is offered where R162 allows, the LINE_FAULT just raised among the items it can be bound to; that offer alone can displace a frame, the last one of a full queue, and so the failed frame only where it stands there (R150, R151, R153, R163). A MARK that a newer unsent MARK has replaced meanwhile leaves the queue (log 46). -/
def Claims.TransmitErrorCountsOnTheFrame : Prop :=
  ∀ (s : State) (u : Nat) (a : Attempt), s.steady = true → s.awake = true → s.port.attempt = some a →
    let failed : TxEntry := { a.entry with attempts := a.entry.attempts + 1 }
    let dropped := 4 ≤ a.entry.attempts + 1
    let mutes := 16 ≤ s.port.failedAttempts + 1
    let replaced := a.entry.frame.isMark = true ∧ (s.port.unsent.any fun x => x.frame.isMark) = true
    let r : State := { s.advance u with
      port := { s.port with
        attempt := none, rx := .listening
        failedAttempts := if mutes then 0 else s.port.failedAttempts + 1
        mutedUntil := if mutes then some (s.at u + 1000000) else s.port.mutedUntil
        txFailures := if dropped then step16 s.port.txFailures else s.port.txFailures
        unsent := if dropped ∨ replaced then s.port.unsent else reinsertTx failed s.port.unsent }
      attention := { s.attention with
        holdOff := if dropped then a.entry.frame.isSpontaneous else s.attention.holdOff } }
    let q : State := if mutes then r.raise srcLineFault a.entry.frame.kindCode else r
    ∃ t, exec (.txError u) s = .next t
      ∧ t = q.reportThenLeave
      ∧ t.port.attempt = none ∧ t.port.rx = .listening
      ∧ t.port.failedAttempts = (if 16 ≤ s.port.failedAttempts + 1 then 0 else s.port.failedAttempts + 1)
      ∧ t.port.mutedUntil = (if 16 ≤ s.port.failedAttempts + 1 then some (s.at u + 1000000) else s.port.mutedUntil)
      ∧ t.port.txFailures = (if 4 ≤ a.entry.attempts + 1 then step16 s.port.txFailures else s.port.txFailures)
      ∧ t.item srcLineFault = (if 16 ≤ s.port.failedAttempts + 1 then
          some (raisedItem (s.item srcLineFault) a.entry.frame.kindCode (s.at u)) else s.item srcLineFault)
      ∧ (∀ x, x ≠ srcLineFault → t.item x = s.item x)
      ∧ (4 ≤ a.entry.attempts + 1 → ∀ e ∈ t.port.unsent, e ∈ s.port.unsent ∨ e.frame.isSpontaneous = true)
      ∧ (a.entry.attempts + 1 < 4 → ¬replaced →
          s.port.length < 8 ∨ q.firstQualifying = none ∨ q.port.unsent.getLast? ≠ some failed →
          failed ∈ t.port.unsent)
      ∧ s.changesOnly [.now, .port, .attention] t

/-- The fourth failed attempt on the reply to LEAVE_SERVICE drops it, and the part is reset at once, whose receive stage then waits (log 70) (R14, R150, R154). -/
def Claims.DroppedLeaveReplyResetsThePart : Prop :=
  ∀ (s : State) (u : Nat) (a : Attempt) (n : StationNo) (st : SvcStatus) (addr : BitVec 16) (data : BitVec 64),
    s.steady = true → s.port.attempt = some a → a.entry.frame = .svcReply n st addr data true → s.handler = .leaving false →
    4 ≤ a.entry.attempts + 1 →
    ∃ t, exec (.txError u) s = .next t ∧ s.wasReset t ∧ t.station.cause = .service

/-- A transmit error retries, drops and mutes; a dropped reply to LEAVE_SERVICE resets the part (R14, R150, R151, R153, R163). -/
def Obligations.TransmitErrorRetriesDropsAndMutes : Prop :=
  Claims.TransmitErrorCountsOnTheFrame ∧ Claims.DroppedLeaveReplyResetsThePart

/-- A muted port resumes at its time (R151). -/
def Claims.MuteEndResumesThePort : Prop :=
  ∀ (s : State) (u : Nat), s.steady = true →
    exec (.muteEnd u) s = .next (match s.port.mutedUntil with
      | some d => if d ≤ s.at u then (s.advance u).setPort { s.port with mutedUntil := none } else s.advance u
      | none => s.advance u)

/-- A frame sent whole: the port owes a yield for a class of 3 or above, its run of failures is over, the keepalive deadline stands a quarter of the presence timeout on, and the hold-off flag is clear. A MARK, an ANNOUNCE and a reply do nothing more; a START, a STOP and a RELEASE act as every receiver's; a REPORT clears its item and withdraws the others bound to it; the reply to LEAVE_SERVICE resets the part, its receive stage too (log 70) (R12, R14, R147, R151, R154, R156, R161, R163). -/
def Obligations.SentFrameTakesEffect : Prop :=
  ∀ (s : State) (u : Nat) (a : Attempt) (k : Nat), s.steady = true → s.port.attempt = some a →
    charactersOfKind a.payload.kindCode = some k →
    let p : Port := { s.port with
      attempt := none, failedAttempts := 0, quietSince := some (s.at u), rx := .waiting
      acceptFrom := s.at u + 11 * s.options.bitTime
      yieldOwed := if 3 ≤ a.entry.cls then true else s.port.yieldOwed }
    let t : State := { s.advance u with
      port := p
      station := { s.station with
        keepalive := if s.station.state = .offline ∨ s.station.state = .listening then s.station.keepalive
          else some (s.at u + s.options.presenceTimeout / 4) }
      attention := { s.attention with holdOff := false } }
    if a.started + 10 * k * s.options.bitTime ≤ s.at u then
      (a.entry.frame = .mark ∨ a.entry.frame = .announce ∨ (∃ n st ad d, a.entry.frame = .svcReply n st ad d false)
          ∨ (∃ n, a.entry.frame = .report none n) →
        exec (.frameSent u) s = .next t.reportThenLeave)
        ∧ (∀ x n, a.entry.frame = .report (some x) n →
            exec (.frameSent u) s = .next ((s.port.unsent.filterMap fun e => match e.frame with
                | .report (some y) (some m) => if x = y then some m else none
                | _ => none).foldl (fun t m => t.offer (.report t.highestPending (some m)))
              ((t.clearItem x).withdraw (TxFrame.boundTo x))).reportThenLeave)
        ∧ (∀ b c d e, a.entry.frame = .start b c d e → exec (.frameSent u) s = .next (t.actStart b c d e).settle)
        ∧ (∀ r, a.entry.frame = .stop r → exec (.frameSent u) s = .next t.actStop.settle)
        ∧ (∀ b h, a.entry.frame = .release b h → exec (.frameSent u) s = .next (t.actRelease b h).settle)
        ∧ (∀ n st ad d, a.entry.frame = .svcReply n st ad d true → s.handler = .leaving false →
            ∃ r, exec (.frameSent u) s = .next r ∧ s.wasReset r ∧ r.station.cause = .service)
    else exec (.frameSent u) s = .next (s.advance u)

/-- With no attempt in progress, ARBITRATION_LOSS, TX_ERROR and FRAME_SENT pass the time alone (log 2). -/
def Claims.AttemptOutcomesNeedAnAttempt : Prop :=
  ∀ (s : State) (u : Nat), s.steady = true → s.port.attempt = none →
    exec (.arbitrationLoss u) s = .next (s.advance u) ∧ exec (.txError u) s = .next (s.advance u)
      ∧ exec (.frameSent u) s = .next (s.advance u)

/-- A raise makes a pending item of count 1 with the detail and the time, or counts up to 255 and leaves the first detail and time; it changes no other item (R160). A part reset clears every item. -/
def Obligations.RaiseMakesOrCountsAnItem : Prop :=
  ∀ (s : State) (x : Source) (detail : Nat),
    (s.raise x detail).item x = some (match s.item x with
        | none => { count := 1, firstDetail := BitVec.ofNat 16 detail, timeOfFirst := BitVec.ofInt 16 (trunc s.now 1000) }
        | some it => { it with count := if it.count < 255 then it.count + 1 else it.count })
      ∧ (∀ y, y ≠ x → (s.raise x detail).item y = s.item y)
      ∧ s.changesOnly [.attention] (s.raise x detail) ∧ (s.raise x detail).attention.holdOff = s.attention.holdOff
      ∧ ∀ cause y, (s.partReset cause).item y = none

/-! ## The ensemble clock -/

/-- Of E the follow update makes the phase correction C, the trim D, the effective tempo and the length of the beat that begins; D and L lie in their ranges (R31). -/
def Obligations.FollowUpdateCorrectsTrimAndBeat : Prop :=
  ∀ (c : Clock) (o : Options) (e : Int), -3277 ≤ c.d → c.d ≤ 3277 →
    let corr := clamp (-768) 768 (rhaz (e * o.gainPhase) 16)
    let t := c.follow o e
    t.d = clamp (-3277) 3277 (c.d + trunc (e * o.gainFreq) 64)
      ∧ (o.gainFreq = 0 → t.d = c.d)
      ∧ t.l = clamp 180000 2200000 (rhu (rhu (c.tScore * (65536 - t.d)) 65536 * (7680 - corr)) 7680)
      ∧ (e = 0 → t.l = clamp 180000 2200000 (rhu (c.tScore * (65536 - t.d)) 65536))
      ∧ (-3277 ≤ t.d ∧ t.d ≤ 3277) ∧ (180000 ≤ t.l ∧ t.l ≤ 2200000)
      ∧ { t with d := c.d, l := c.l } = c

/-- The three roundings of a quotient: RHU half up, RHAZ half away from zero, TRUNC toward zero (00, Rounding). -/
def Obligations.RoundingsAreThoseOfTheSpec : Prop :=
  ∀ n d : Int, 0 < d →
    (2 * d * rhu n d ≤ 2 * n + d ∧ 2 * n + d < 2 * d * (rhu n d + 1))
      ∧ (0 ≤ n → rhaz n d = rhu n d) ∧ (rhaz (-n) d = -rhaz n d)
      ∧ (0 ≤ n → d * trunc n d ≤ n ∧ n < d * (trunc n d + 1)) ∧ (trunc (-n) d = -trunc n d)

/-- A beat boundary, self-resync apart: Pb and B move on by a beat, the position starts at Pb, the marks since the last update are emptied, and D and L come from the weighted mean offset of the fresh marks; in PLAYING the meter moves on a beat; then every TEMPO and BAR event at or below the new Pb takes effect and leaves the list, in list order, the last prevailing. In PLAYING a MARK stands in the queue where every beat is marked (R23 to R26, R30, R31). -/
def Claims.BeatBoundaryAdvancesTheClock : Prop :=
  ∀ (s : State) (u : Nat), s.steady = true → s.awake = true → s.clockRuns = true → s.clock.b + s.clock.l ≤ s.at u →
    ¬(s.station.state = .playing ∧ 1 ≤ s.clock.selfOutliers ∧ selfOutlying s.clock.marks = true) →
    let e := meanOffset ((s.advance u).freshMarks s.clock.l)
    ∃ t, exec (.beatBoundary u) s = .next t
      ∧ t.clock.pb = s.clock.pb + 7680 ∧ t.clock.b = s.clock.b + s.clock.l ∧ t.clock.pf = s.clock.pb + 7680
      ∧ t.clock.marks = []
      ∧ t.clock.d = clamp (-3277) 3277 (s.clock.d + trunc (e * s.options.gainFreq) 64)
      ∧ t.clock.l = clamp 180000 2200000 (rhu (rhu (t.clock.tScore * (65536 - t.clock.d)) 65536
          * (7680 - clamp (-768) 768 (rhaz (e * s.options.gainPhase) 16))) 7680)
      ∧ (s.station.state ≠ .countin → s.tempoAs t (s.clock.pb + 7680) s.clock.tScore)
      ∧ (s.station.state = .playing → s.metersAs t (s.clock.pb + 7680) s.clock.bpb
          (if s.clock.beatInBar < s.clock.bpb then s.clock.bar else stepTo 65535 s.clock.bar)
          (if s.clock.beatInBar < s.clock.bpb then s.clock.beatInBar + 1 else 1))
      ∧ (∀ e ∈ t.reader.timeline, e.boundaryEvent (s.clock.pb + 7680) = false)
      ∧ (s.station.state = .playing → s.station.finishing = false → s.options.markInterval = .everyBeat → s.port.length < 7 →
          t.port.hasUnsent TxFrame.isMark = true)
      ∧ s.changesOnly [.now, .station, .roster, .port, .clock, .reader, .planner, .channels, .inputs, .confirm, .dampers,
          .rotor, .attention] t

/-- The self-outlier count at a boundary, self-resync apart: in PLAYING, which the start position and the entry bar enter before the follow update, it is 1 after marks that all are outliers of one sign from two peers or more, and 0 after any others; outside PLAYING it is 0 (R32, R34, R44). -/
def Claims.BoundaryCountsSelfOutliers : Prop :=
  (∀ ms : List MarkNote, selfOutlying ms = true ↔
      (∃ a ∈ ms, ∃ b ∈ ms, a.peer ≠ b.peer) ∧ ∀ a ∈ ms, a.outlier = true ∧ ∀ b ∈ ms, a.sign = b.sign)
    ∧ ∀ (s : State) (u : Nat), s.steady = true → s.awake = true → s.clockRuns = true → s.clock.b + s.clock.l ≤ s.at u →
      ¬(s.station.state = .playing ∧ 1 ≤ s.clock.selfOutliers ∧ selfOutlying s.clock.marks = true) →
      ∃ t, exec (.beatBoundary u) s = .next t
        ∧ ((s.station.state = .playing
              ∨ (s.station.state = .countin ∧ ∃ p f, s.clock.start = some p ∧ p.found = some f ∧ s.clock.pb + 7680 = p.pos)
              ∨ (s.station.state = .rejoining ∧ ∃ e, s.clock.entryBar = some e ∧ s.clock.pb + 7680 = e.pos)) →
            t.clock.selfOutliers = if selfOutlying s.clock.marks = true then 1 else 0)
        ∧ ((s.station.state = .countin ∧ ∀ p f, s.clock.start = some p → p.found = some f → s.clock.pb + 7680 ≠ p.pos)
              ∨ (s.station.state = .rejoining ∧ ∀ e, s.clock.entryBar = some e → s.clock.pb + 7680 ≠ e.pos) →
            t.clock.selfOutliers = 0)

/-- The mark boundaries, self-resync apart: in COUNTIN with the position below the start position, and in COUNTIN and PLAYING on beat 1, on every beat with EVERY_BEAT and on the odd beats with EVERY_SECOND_BEAT, by the state and the meter that the boundary leaves. Such a boundary queues a MARK, or renews the unsent one, where the queue takes it; no other boundary queues one (R26, R153). -/
def Claims.BoundaryQueuesTheMark : Prop :=
  ∀ (s : State) (u : Nat), s.steady = true → s.awake = true → s.clockRuns = true → s.clock.b + s.clock.l ≤ s.at u →
    ¬(s.station.state = .playing ∧ 1 ≤ s.clock.selfOutliers ∧ selfOutlying s.clock.marks = true) →
    ∃ t, exec (.beatBoundary u) s = .next t
      ∧ let marked : Prop :=
          (t.station.state = .countin ∧ ∃ p, t.clock.start = some p ∧ s.clock.pb + 7680 < p.pos)
            ∨ ((t.station.state = .countin ∨ t.station.state = .playing)
              ∧ (t.clock.beatInBar = 1 ∨ s.options.markInterval = .everyBeat
                ∨ (s.options.markInterval = .everySecondBeat ∧ t.clock.beatInBar % 2 = 1)))
        (marked → s.port.length < 8 ∨ s.port.hasUnsent TxFrame.isMark = true
              ∨ (∃ v, s.port.unsent.getLast? = some v ∧ 2 < v.cls) → t.port.hasUnsent TxFrame.isMark = true)
          ∧ (¬marked → t.port.hasUnsent TxFrame.isMark = true → s.port.hasUnsent TxFrame.isMark = true)

/-- Fresh at a boundary are the peers' last marks that hold an offset not consumed, are no older than mark_age beats and weigh 1 at least; the follow update consumes these and no other (R30). -/
def Claims.BoundaryConsumesTheFreshMarks : Prop :=
  ∀ (s : State) (u : Nat), s.steady = true → s.awake = true → s.clockRuns = true → s.clock.b + s.clock.l ≤ s.at u →
    ¬(s.station.state = .playing ∧ 1 ≤ s.clock.selfOutliers ∧ selfOutlying s.clock.marks = true) →
    (s.advance u).freshMarks s.clock.l = (allStations.filterMap fun n => match s.peer n with
        | some e => if s.isFresh u s.clock.l n e = true then
            (e.lastMark.bind LastMark.offset).map fun o => ((followWeight s.options n e : Int), o) else none
        | none => none)
      ∧ ∃ t, exec (.beatBoundary u) s = .next t
        ∧ ∀ n, t.peer n = (s.peer n).map fun e =>
            if s.isFresh u s.clock.l n e = true then
              { e with lastMark := e.lastMark.map fun m => { m with consumed := true } } else e

/-- The second update in a row whose marks are all outliers of one sign, from two peers or more, sends a playing station to REJOINING with its strike queue, roll table and timeline list flushed, its position unset and its reader waiting for the reference, which is tested from there, and raises SELF_RESYNC with the bar number as detail (R21, R24, R32, R41, R46). -/
def Claims.SelfResyncRejoins : Prop :=
  ∀ (s : State) (u : Nat), s.steady = true → s.awake = true → s.station.state = .playing → s.station.finishing = false →
    s.clock.b + s.clock.l ≤ s.at u → 1 ≤ s.clock.selfOutliers → selfOutlying s.clock.marks = true →
    ∃ t, exec (.beatBoundary u) s = .next t
      ∧ t.station.state = .rejoining ∧ t.station.activePiece = s.station.activePiece ∧ t.planner.queue = []
      ∧ t.clock.selfOutliers = 0 ∧ t.clock.marks = [] ∧ t.clock.remembered = s.clock.remembered
      ∧ t.clock.lastPassed = s.clock.lastPassed
      ∧ (∃ r : State, (s.advance u).rejoinsUnset r s.station.activePiece
        ∧ (∀ n, (r.peer n).map RosterEntry.offsetUsed = (s.peer n).map RosterEntry.offsetUsed)
        ∧ t.clock = r.rejoinTest.clock ∧ t.reader = r.rejoinTest.reader ∧ t.roster = r.rejoinTest.roster)
      ∧ t.item srcSelfResync = some (raisedItem (s.item srcSelfResync)
          (match s.lastBar (s.clock.pb + 7680) with
          | some (_, number) => number
          | none => if s.clock.beatInBar < s.clock.bpb then s.clock.bar else stepTo 65535 s.clock.bar) (s.at u))

/-- The same update in a station that finishes ends the piece with its clean-up: READY, its strike queue empty and its claims gone, its confirm records abandoned, its dampers lowered, its rotor at rest, and SELF_RESYNC raised (R11, R32, R65, R126). That the records are abandoned is R11's clean-up of R7; R114 has self-resync abandon nothing, and the model's choice is R11 (log 86). -/
def Claims.SelfResyncEndsAFinishingPiece : Prop :=
  ∀ (s : State) (u : Nat), s.steady = true → s.awake = true → s.station.state = .playing → s.station.finishing = true →
    s.clock.b + s.clock.l ≤ s.at u → 1 ≤ s.clock.selfOutliers → selfOutlying s.clock.marks = true →
    ∃ t, exec (.beatBoundary u) s = .next t
      ∧ t.finished ∧ t.planner.queue = [] ∧ s.claimsWithdrawn t ∧ s.recordsAbandoned t ∧ t.reader.timeline = [] ∧ t.reader.mute = none
      ∧ (∀ c, (s.settings c).kind = .damper → (t.damper c).targetRaised = false)
      ∧ t.clock.selfOutliers = 0 ∧ t.clock.marks = [] ∧ t.clock.remembered = none
      ∧ t.port.hasUnsent TxFrame.isMark = false
      ∧ t.item srcSelfResync = some (raisedItem (s.item srcSelfResync)
          (match s.lastBar (s.clock.pb + 7680) with
          | some (_, number) => number
          | none => if s.clock.beatInBar < s.clock.bpb then s.clock.bar else stepTo 65535 s.clock.bar) (s.at u))

/-- The boundary that reaches the start position: with the start bar found the station enters PLAYING at beat 1 of that bar, with the tempo found there, before the TEMPO and BAR events of that position; with a provisional start position it enters REJOINING, its queue flushed, its entry threshold a beat on. Any other boundary leaves it in COUNTIN. The beat within the bar goes on, and the bar number stands, where the station does not enter PLAYING, the BAR events of the boundary taken after it (R23, R24, R25, R34, R35). -/
def Claims.CountInEndsAtTheStartPosition : Prop :=
  ∀ (s : State) (u : Nat) (p : StartPosition), s.steady = true → s.awake = true → s.station.finishing = false →
    s.station.state = .countin → s.clock.start = some p → s.clock.b + s.clock.l ≤ s.at u →
    let nextBeat := if s.clock.beatInBar < s.clock.bpb then s.clock.beatInBar + 1 else 1
    ∃ t, exec (.beatBoundary u) s = .next t ∧ t.station.activePiece = s.station.activePiece
      ∧ (s.clock.pb + 7680 ≠ p.pos → t.station.state = .countin ∧ t.clock.start = some p
          ∧ s.metersAs t (s.clock.pb + 7680) s.clock.bpb s.clock.bar nextBeat
          ∧ s.tempoAs t (s.clock.pb + 7680) s.clock.tScore)
      ∧ (∀ f, s.clock.pb + 7680 = p.pos → p.found = some f → t.station.state = .playing ∧ t.clock.start = none
          ∧ s.metersAs t p.pos f.bpb f.bar 1
          ∧ s.tempoAs t p.pos (match f.tempo with | some us => clamp 200000 2000000 us | none => s.clock.tScore))
      ∧ (s.clock.pb + 7680 = p.pos → p.found = none → t.station.state = .rejoining ∧ t.clock.start = none
          ∧ t.clock.isSet = s.clock.isSet ∧ t.planner.queue = [] ∧ t.clock.entryBar = none
          ∧ s.metersAs t p.pos s.clock.bpb s.clock.bar nextBeat
          ∧ (s.clock.b + s.clock.l = s.at u → t.clock.entryThreshold = some (ceilBeat (p.pos + 7680))))

/-- The boundary that reaches the entry bar takes a rejoining station to PLAYING at beat 1 of that bar, raises REJOINED with its number and queues a MARK, the TEMPO and BAR events of that position taking effect after it; with no entry bar found, a threshold reached moves to a beat ahead. Below the entry bar the beat within the bar goes on and the bar number stands (R24, R25, R26, R43, R44). -/
def Claims.RejoinEndsAtTheEntryBar : Prop :=
  ∀ (s : State) (u : Nat), s.steady = true → s.awake = true → s.station.finishing = false →
    s.station.state = .rejoining → s.clock.isSet = true → s.clock.b + s.clock.l ≤ s.at u →
    let nextBeat := if s.clock.beatInBar < s.clock.bpb then s.clock.beatInBar + 1 else 1
    ∃ t, exec (.beatBoundary u) s = .next t ∧ t.station.activePiece = s.station.activePiece
      ∧ (∀ e, s.clock.entryBar = some e → s.clock.pb + 7680 = e.pos →
          t.station.state = .playing ∧ t.clock.entryBar = none ∧ t.clock.entryThreshold = none
            ∧ t.item srcRejoined = some (raisedItem (s.item srcRejoined) e.bar (s.at u))
            ∧ (s.port.length < 7 → t.port.hasUnsent TxFrame.isMark = true)
            ∧ s.metersAs t e.pos e.bpb e.bar 1 ∧ s.tempoAs t e.pos s.clock.tScore)
      ∧ (∀ e, s.clock.entryBar = some e → s.clock.pb + 7680 ≠ e.pos →
          t.station.state = .rejoining ∧ t.clock.entryBar = some e ∧ t.clock.entryThreshold = s.clock.entryThreshold
            ∧ s.metersAs t (s.clock.pb + 7680) s.clock.bpb s.clock.bar nextBeat)
      ∧ (s.clock.entryBar = none → t.station.state = .rejoining ∧ t.clock.entryBar = none
          ∧ s.metersAs t (s.clock.pb + 7680) s.clock.bpb s.clock.bar nextBeat
          ∧ t.clock.entryThreshold = s.clock.entryThreshold.map fun th =>
              if th ≤ s.clock.pb + 7680 then s.clock.pb + 15360 else th)

/-- The rotor at a boundary, self-resync apart: the last ROTOR event at or below the new Pb gives the target, and the duty is updated on the window's count of the beat just ended; a stall raises ROTOR_STALL with the bar number. While the station finishes the events go and the rotor stays at rest (R127, R129 to R131; the last is the model's reading, log 59). -/
def Claims.BoundaryTurnsTheRotor : Prop :=
  ∀ (s : State) (u : Nat), s.steady = true → s.awake = true → s.clockRuns = true → s.clock.b + s.clock.l ≤ s.at u →
    ¬(s.station.state = .playing ∧ 1 ≤ s.clock.selfOutliers ∧ selfOutlying s.clock.marks = true) →
    let pending := (s.reader.timeline.filterMap fun e => e.rotorTarget (s.clock.pb + 7680)).getLast?.or s.rotor.pendingTarget
    let r : Rotor := { s.rotor with target := pending.getD s.rotor.target, pendingTarget := none }
    ∃ t, exec (.beatBoundary u) s = .next t
      ∧ (s.station.finishing = false →
          t.rotor = { r.update s.rotor.window s.rail.band s.options.rotorGain with window := 0 }
            ∧ t.item srcRotorStall = (if r.stalls s.rotor.window s.rail.band = true then
                some (raisedItem (s.item srcRotorStall) t.clock.bar (s.at u)) else s.item srcRotorStall))
      ∧ (s.station.finishing = true →
          t.rotor = { target := 0, pendingTarget := none, duty := 0, window := 0, zeroBeats := 0 }
            ∧ t.item srcRotorStall = s.item srcRotorStall)
      ∧ ∀ e ∈ t.reader.timeline, e.rotorTarget (s.clock.pb + 7680) = none

/-- A boundary, self-resync apart, projects the PLANNED entries and the DAMP events anew by the clock it leaves; the entries then due arm, and the DAMP events whose apply moment has come apply, the planner before the dampers (R70, R71, R73, R121; the order: log 21). -/
def Claims.BoundaryProjectsStrikesAndDampers : Prop :=
  ∀ (s : State) (u : Nat), s.steady = true → s.awake = true → s.clockRuns = true → s.clock.b + s.clock.l ≤ s.at u →
    ¬(s.station.state = .playing ∧ 1 ≤ s.clock.selfOutliers ∧ selfOutlying s.clock.marks = true) →
    s.strikesOrdered → s.timelineOrdered →
    ∃ t, exec (.beatBoundary u) s = .next t ∧ s.reprojected t ∧ s.dampsApplied t

/-- A boundary falls only while the clock runs, and not before its time (R23). -/
def Claims.NoBoundaryBeforeItsTime : Prop :=
  ∀ (s : State) (u : Nat), s.steady = true → s.clockRuns = false ∨ s.at u < s.clock.b + s.clock.l →
    exec (.beatBoundary u) s = .next (s.advance u)

/-- Of E the boundary uses the mean of the offsets of the fresh marks by their weights, 0 where there is none; a weight is the table's or, by class, 6, 4, 3, 0 or 1 (R20, R30). -/
def Claims.FollowWeightsAreThoseOfTheTable : Prop :=
  (∀ (o : Options) (n : StationNo) (e : RosterEntry), followWeight o n e = (match o.weights[n], e.cls with
      | some w, _ => w
      | none, some .percussion => 6
      | none, some .marimba => 4
      | none, some .vibraphone => 3
      | none, some .showControl => 0
      | none, some .service => 0
      | none, none => 1))
    ∧ meanOffset [] = 0
    ∧ ∀ ms : List (Int × Int), ms ≠ [] → meanOffset ms = rhaz (ms.map fun m => m.1 * m.2).sum (ms.map fun m => m.1).sum

/-! ### Holds and END -/

/-- The first HOLD event at or below the position is reached: a remembered release of its number passes it without a pause; otherwise the station holds at its position (log 28) with the limit, the owner's deadline and, from PLAYING, the hold-mark deadline, and no strike beyond the hold stays projected or armed (R26, R36, R72). -/
def Claims.HoldReachedHoldsOrPasses : Prop :=
  ∀ (s : State) (u : Nat) (pre post : List TimelineEvent) (p : Pos) (number : Nat) (owner : Bool) (ms limit : Nat),
    s.steady = true → s.awake = true → s.reachesEvents = true →
    s.reader.timeline = pre ++ { pos := p, kind := .hold number owner ms limit } :: post →
    p ≤ (s.advance u).position → (∀ x ∈ pre, x.isHold = true → (s.advance u).position < x.pos) →
    (s.clock.remembered = some number →
      exec (.holdReached u) s = .next (((s.advance u).setReader { s.reader with timeline := pre ++ post }).setClock
        { s.clock with remembered := none, lastPassed := some number }))
      ∧ (s.clock.remembered ≠ some number →
          ∃ t, exec (.holdReached u) s = .next t
            ∧ t.station = { s.station with
                state := .holding, returnState := some s.station.state, companyDeadline := none }
            ∧ (∃ h, t.clock = { s.clock with hold := some h } ∧ h.number = number ∧ h.pos = (s.advance u).position
              ∧ h.start = s.at u ∧ h.owner = owner
              ∧ h.limit = s.at u + 1000000 * (if limit = 0 then s.options.holdLimit else min limit 60 : Nat)
              ∧ h.ownerDeadline = (if owner = true ∧ ms ≠ 0 then some (s.at u + 1000 * ms) else none)
              ∧ h.markDeadline =
                  (if s.station.state = .playing then some (s.at u + s.options.presenceTimeout / 4) else none))
            ∧ t.reader = { s.reader with timeline := pre ++ post }
            ∧ (∀ e ∈ t.planner.queue, (s.advance u).position < e.pos → e.projected = none ∧ e.isArmed = false)
            ∧ (s.port.length ≤ 5 → s.station.state = .playing → t.port.hasUnsent TxFrame.isMark = true)
            ∧ (s.port.length ≤ 5 → owner = true ∧ ms = 0 → t.port.hasUnsent
                (fun f => f.isReleaseOf (pieceByte s.station.activePiece) (BitVec.ofNat 8 number)) = true)
            ∧ s.changesOnly [.now, .station, .port, .clock, .reader, .planner, .channels, .attention] t)

/-- The owner's deadline offers a RELEASE of the hold once, and the station goes on holding; the hold-mark deadline offers a MARK and stands a quarter of the presence timeout further on (R26, R37). -/
def Claims.HoldDeadlinesQueueReleaseAndMark : Prop :=
  ∀ (s : State) (u : Nat) (h : HoldState), s.steady = true → s.station.state = .holding → s.clock.hold = some h →
    (exec (.ownerDeadline u) s = .next
      (if reached h.ownerDeadline (s.at u) = true then
        (((s.advance u).setClock { s.clock with hold := some { h with ownerDeadline := none } }).offer
          (.release (pieceByte s.station.activePiece) (BitVec.ofNat 8 h.number))).reportThenLeave
      else s.advance u))
      ∧ (∀ d, h.markDeadline = some d →
          let h' : HoldState := { h with markDeadline := some (d + s.options.presenceTimeout / 4) }
          exec (.holdMarkDeadline u) s = .next
            (if d ≤ s.at u then
              (((s.advance u).setClock { s.clock with hold := some h' }).offer .mark).reportThenLeave
            else s.advance u))
      ∧ (h.markDeadline = none → exec (.holdMarkDeadline u) s = .next (s.advance u))

/-- The limit of a hold releases it and raises HOLD_TIMEOUT with its number; no mark is left to use, here or in the roster, and this station's own unsent RELEASE of the hold is withdrawn; before the limit nothing happens. A station that finishes, back in PLAYING with its strike queue and its confirm list empty, enters READY (R11, R26, R32, R38, R40). -/
def Claims.HoldLimitReleasesTheHold : Prop :=
  ∀ (s : State) (u : Nat) (h : HoldState), s.steady = true → s.awake = true → s.station.state = .holding →
    s.clock.hold = some h →
    if h.limit ≤ s.at u then
      ∃ t, exec (.holdLimit u) s = .next t
        ∧ (if s.station.finishing = true ∧ s.station.returnState.getD .playing = .playing ∧ t.planner.queue = [] ∧ t.confirm = []
            then t.finished else s.leftHold t u h)
        ∧ t.offsetsConsumed
        ∧ t.port.hasUnsent (fun f => f.isReleaseOf (pieceByte s.station.activePiece) (BitVec.ofNat 8 h.number)) = false
        ∧ t.item srcHoldTimeout = some (raisedItem (s.item srcHoldTimeout) h.number (s.at u))
        ∧ (s.station.finishing = false → t.rotor = s.rotor)
        ∧ s.changesOnly [.now, .station, .roster, .port, .clock, .planner, .reader, .channels, .inputs, .confirm, .dampers,
            .rotor, .attention] t
    else exec (.holdLimit u) s = .next (s.advance u)

/-- A release, by a frame or by the hold's limit, projects again the entries that the hold had left unprojected, and arms those then due; the DAMP events whose apply moment has come by the clock it leaves apply (R40, R70, R71, R72, R73, R121). That the planner comes before the dampers is the model's choice (log 82). -/
def Claims.ReleaseProjectsAnew : Prop :=
  ∀ (s : State) (u : Nat) (hold : HoldState), s.awake = true → s.station.state = .holding → s.clock.hold = some hold →
    s.clock.isSet = true → 0 ≤ s.clock.l → s.strikesOrdered → s.timelineOrdered →
    (∀ n, s.hears u n 0x5 → s.station.activePiece.isSome = true → hold.number < 256 →
      ∃ t, exec (.releaseFrame u n (pieceByte s.station.activePiece) (BitVec.ofNat 8 hold.number)) s = .next t
        ∧ s.reprojected t ∧ s.dampsApplied t)
      ∧ (s.steady = true → hold.limit ≤ s.at u →
          ∃ t, exec (.holdLimit u) s = .next t ∧ s.reprojected t ∧ s.dampsApplied t)

/-- Outside HOLDING the deadlines of a hold do nothing. -/
def Claims.HoldDeadlinesNeedAHold : Prop :=
  ∀ (s : State) (u : Nat), s.steady = true → s.station.state ≠ .holding →
    exec (.ownerDeadline u) s = .next (s.advance u) ∧ exec (.holdLimit u) s = .next (s.advance u)
      ∧ exec (.holdMarkDeadline u) s = .next (s.advance u)

/-- The END of the part in PLAYING: the mute window is cleared, every damper's target is LOWERED and the rotor is at rest; with the strike queue and the confirm list empty the station enters READY, with a strike queued or a record open it goes on playing with its finishing flag set, and both lists stand where no strike is due and no claim waits (R11, R45, R55, R126, R131). An END is taken whatever HOLD of that moment stands before it (model's choice, log 48). -/
def Claims.EndInPlayingFinishesThePiece : Prop :=
  ∀ (s : State) (u : Nat) (pre post : List TimelineEvent) (p : Pos), s.steady = true → s.awake = true →
    s.station.state = .playing → s.reader.timeline = pre ++ { pos := p, kind := .endOfPart } :: post →
    p ≤ (s.advance u).position → (∀ x ∈ pre, x.isEnd = true → (s.advance u).position < x.pos) →
    ∃ t, exec (.endReached u) s = .next t
      ∧ t.reader.mute = none ∧ t.rotor = { target := 0, pendingTarget := none, duty := 0, window := 0, zeroBeats := 0 }
      ∧ (∀ c, (s.settings c).kind = .damper → (t.damper c).targetRaised = false)
      ∧ (s.planner.queue = [] → s.confirm = [] →
          t.station.state = .ready ∧ t.station.activePiece = none ∧ t.station.finishing = false ∧ t.reader.state = .idle)
      ∧ (s.confirm ≠ [] → t.station = { s.station with finishing := true })
      ∧ (if t.planner.queue = [] ∧ t.confirm = [] then t.finished
        else t.station = { s.station with finishing := true } ∧ t.clock = s.clock
          ∧ t.reader = { s.reader with mute := none, timeline := pre ++ post })
      ∧ (s.planner.claims = [] → (∀ x ∈ s.planner.queue, ∀ c w f, x.phase = .armed c w f → s.at u < f) →
          t.planner.queue = s.planner.queue ∧ t.confirm = s.confirm)
      ∧ s.changesOnly [.now, .station, .port, .clock, .reader, .planner, .channels, .inputs, .confirm, .dampers, .rotor,
          .attention] t

/-- END in REJOINING, the position set, ends the piece at once with the clean-up of R7 (R11, R45, R65, R114, R126). -/
def Claims.EndInRejoiningEndsThePiece : Prop :=
  ∀ (s : State) (u : Nat) (pre post : List TimelineEvent) (p : Pos), s.steady = true → s.awake = true →
    s.station.state = .rejoining → s.clock.isSet = true →
    s.reader.timeline = pre ++ { pos := p, kind := .endOfPart } :: post →
    p ≤ (s.advance u).position → (∀ x ∈ pre, x.isEnd = true → (s.advance u).position < x.pos) →
    ∃ t, exec (.endReached u) s = .next t ∧ s.cleanedUp t
      ∧ s.changesOnly [.now, .station, .port, .clock, .reader, .planner, .inputs, .confirm, .dampers, .rotor, .attention] t

/-- No END is reached before its position, in a list without one, and in the states in which no position is reached (R21, R45). -/
def Claims.NoEndBeforeItsPosition : Prop :=
  ∀ (s : State) (u : Nat), s.steady = true →
    (∀ x ∈ s.reader.timeline, x.isEnd = true → (s.advance u).position < x.pos)
      ∨ (s.station.state ≠ .playing ∧ (s.station.state ≠ .rejoining ∨ s.clock.isSet = false)) →
    exec (.endReached u) s = .next (s.advance u)

/-! ## The reader -/

/-- The reader takes a record at or below the horizon that has room: an unknown record is raised and passed, a STRIKE becomes an entry of the strike queue, projected by the clock as it stands, a TEMPO takes its place in the timeline list, and a ROLL the lowest free slot of the roll table. 2 µs pass before the next item, and the cursor moves on (R48, R49, R50, R51, R53, R63, R70). -/
def Claims.ReaderTakesTheNextRecord : Prop :=
  ∀ (s : State) (u : Nat) (c : Cursor), s.steady = true → s.reader.state = .reading → s.hasPosition = true →
    s.reader.busyUntil ≤ s.at u → s.reader.cursor = some c → s.reader.firstStroke = none → s.reader.mute = none →
    c.position ≤ (s.advance u).position + s.options.lookAhead * 7680 →
    let r : Reader := { s.reader.crossTo c.position with busyUntil := s.at u + 2, cursor := some (s.nextCursor c) }
    let t := (s.advance u).setReader r
    (s.recordAtCursor c = .unknown →
      exec (.readerTakeItem u) s = .next (t.raise srcUnknownRecord c.index).reportThenLeave)
      ∧ (∀ us, s.recordAtCursor c = .event (.tempo us) → s.reader.timeline.length < 16 →
          exec (.readerTakeItem u) s = .next (t.setReader
            { r with timeline := insertEvent { pos := c.position, kind := .tempo us } s.reader.timeline }))
      ∧ (∀ voice velocity duration interval primary alternate k, s.recordAtCursor c = .roll voice velocity duration interval →
          velocity ≠ 0 → duration ≠ 0 → interval ≠ 0 → s.voiceChannels voice = some (primary, alternate) →
          s.reader.freeSlot = some k →
          let x := RollRecord.mk voice (min velocity 127) c.position (c.position + 16 * duration) interval primary
          exec (.readerTakeItem u) s = .next (t.setReader { r with rolls := s.reader.rolls.set k (some x) }))
      ∧ (∀ voice velocity primary alternate, s.recordAtCursor c = .strike voice velocity → velocity ≠ 0 →
          s.voiceChannels voice = some (primary, alternate) → s.planner.queue.length < 64 →
          (∀ x ∈ s.planner.queue, ¬(x.pos = c.position ∧ x.voice = voice)) → s.projects c.position = true →
          let f := s.figures primary (min velocity 127)
          let fire := s.clock.timeOf c.position - f.flight
          let e : StrikeEntry := { newStrike c.position voice (min velocity 127) primary alternate false with
            projected := some fire, width := f.width, flight := f.flight, weak := f.weak }
          s.at u < fire - 2000 →
          exec (.readerTakeItem u) s = .next
            (t.setPlanner { s.planner with queue := insertStrike e s.planner.queue }))

/-- An item beyond the horizon, or with no room in its destination, is not taken (R48). -/
def Claims.ReaderWaitsForHorizonAndRoom : Prop :=
  ∀ (s : State) (u : Nat), s.steady = true →
    (s.reader.state ≠ .reading ∨ s.hasPosition = false ∨ s.at u < s.reader.busyUntil ∨ s.reader.nextItem = none →
      exec (.readerTakeItem u) s = .next (s.advance u))
      ∧ (∀ i, s.reader.nextItem = some i → (s.advance u).position + s.options.lookAhead * 7680 < i.pos →
          exec (.readerTakeItem u) s = .next (s.advance u))
      ∧ (∀ c voice velocity, s.reader.nextItem = some (.record c) → s.recordAtCursor c = .strike voice velocity →
          velocity ≠ 0 → (s.voiceChannels voice).isSome = true → s.reader.mute = none → 64 ≤ s.planner.queue.length →
          exec (.readerTakeItem u) s = .next (s.advance u))
      ∧ (∀ c k, s.reader.nextItem = some (.record c) → s.recordAtCursor c = .event k → 16 ≤ s.reader.timeline.length →
          exec (.readerTakeItem u) s = .next (s.advance u))

/-- A BAR, HOLD, DAMP, ROTOR or END record with room in the timeline list takes its place there, behind the events at its position; a BAR is given to the read meter as well, and an END stops the reading and empties the roll table. An event the clock has passed comes about at once: a ROTOR target is pending, a DAMP applies to its damper channels, a HOLD and an END are reached (log 28); so does a ROTOR or DAMP exactly at the position (log 65). A DAMP event whose apply moment for a channel has come applies to it. A DAMP that is only placed moves nothing else where no claim waits for a slot that could be granted, as R81 has it (R48, R51, R52, R62, R81, R121, R127). -/
def Claims.ReaderTakesTheEvents : Prop :=
  ∀ (s : State) (u : Nat) (c : Cursor), s.reads u (.record c) → s.awake = true → s.reader.timeline.length < 16 →
    let r := s.pastRecord u c
    let t := (s.advance u).setReader r
    let here := (s.advance u).position
    let placed := fun k : EventKind => insertEvent { pos := c.position, kind := k } s.reader.timeline
    (∀ bpb bar, s.recordAtCursor c = .event (.bar bpb bar) →
      exec (.readerTakeItem u) s = .next (t.setReader
        { r.takeBar c.position bpb bar with timeline := placed (.bar bpb bar) }))
      ∧ (∀ k owner ms limit, s.recordAtCursor c = .event (.hold k owner ms limit) →
          (here < c.position ∨ (s.station.state ≠ .playing ∧ s.station.state ≠ .rejoining) →
            exec (.readerTakeItem u) s = .next (t.setReader { r with timeline := placed (.hold k owner ms limit) }))
          ∧ (c.position ≤ here → s.station.state = .playing ∨ s.station.state = .rejoining → s.clock.remembered = some k →
              exec (.readerTakeItem u) s = .next
                (t.setClock { s.clock with remembered := none, lastPassed := some k }))
          ∧ (c.position ≤ here → s.station.state = .playing ∨ s.station.state = .rejoining → s.clock.remembered ≠ some k →
              ∃ t', exec (.readerTakeItem u) s = .next t' ∧ t'.station.state = .holding
                ∧ t'.station.returnState = some s.station.state ∧ t'.reader = r
                ∧ ∃ h, t'.clock = { s.clock with hold := some h } ∧ h.number = k ∧ h.pos = here ∧ h.owner = owner))
      ∧ (∀ n, s.recordAtCursor c = .event (.rotor n) →
          exec (.readerTakeItem u) s = .next
            (if here < c.position then t.setReader { r with timeline := placed (.rotor n) }
            else t.setRotor { s.rotor with pendingTarget := some (min n 32) }))
      ∧ (∀ raise cs, s.recordAtCursor c = .event (.damp raise cs) → (∀ d, (s.advance u).firstDamp d = none) →
          let named := fun d : Chan => (s.settings d).kind = .damper ∧ cs.getLsbD d.val = true
          let due := fun d : Chan => c.position ≤ here
            ∨ ((s.advance u).dampAllowed c.position = true ∧ s.clock.timeOf c.position - (s.settings d).damperLead ≤ s.at u)
          (∀ d, (s.damperSet cs).getLsbD d.val = true ↔ named d)
            ∧ ((∀ d, ¬named d) → exec (.readerTakeItem u) s = .next t)
            ∧ ((s.planner.claims ≠ [] → s.rail.band = .cut ∨ s.options.driveSlots ≤ s.slotsInUse) →
                (∃ d, named d) → (∀ d, named d → ¬due d) →
                exec (.readerTakeItem u) s = .next (t.setReader { r with timeline := placed (.damp raise (s.damperSet cs)) }))
            ∧ ∃ t', exec (.readerTakeItem u) s = .next t' ∧ ∀ d, (s.settings d).kind = .damper →
                (named d → due d → (t'.damper d).targetRaised = raise)
                  ∧ (¬named d ∨ ¬due d → (t'.damper d).targetRaised = (s.damper d).targetRaised))
      ∧ (s.recordAtCursor c = .event .endOfPart →
          (here < c.position ∨ (s.station.state ≠ .playing ∧ s.station.state ≠ .rejoining) →
            exec (.readerTakeItem u) s = .next (t.setReader
              { r with
                cursor := some c, state := .ended, rolls := Vector.replicate 4 none, timeline := placed .endOfPart }))
          ∧ (c.position ≤ here → s.station.state = .playing → s.station.finishing = false →
              ∃ t', exec (.readerTakeItem u) s = .next t' ∧ t'.reader.mute = none
                ∧ (∀ k : Fin 4, t'.reader.rolls[k] = none)
                ∧ t'.rotor = { target := 0, pendingTarget := none, duty := 0, window := 0, zeroBeats := 0 }
                ∧ (s.planner.queue = [] → s.confirm = [] → t'.station.state = .ready ∧ t'.reader.state = .idle)
                ∧ (s.confirm ≠ [] → t'.station = { s.station with finishing := true } ∧ t'.reader.state = .ended))
          ∧ (c.position ≤ here → s.station.state = .rejoining →
              ∃ t', exec (.readerTakeItem u) s = .next t' ∧ t'.station.state = .ready ∧ t'.reader.state = .idle))

/-- A DAMP that the reader places at or behind the position follows an earlier event of the same damper that is due at its apply moment or before it, so that the later-placed one sets the final target (R121; at the very position: log 65). -/
def Claims.PlacedDampFollowsTheEarlierOne : Prop :=
  ∀ (s : State) (u : Nat) (c : Cursor) (raise r : Bool) (cs : BitVec 24) (d : Chan) (k : Nat) (m : Time),
    s.reads u (.record c) → s.awake = true → s.reader.timeline.length < 16 →
    s.recordAtCursor c = .event (.damp raise cs) → c.position ≤ (s.advance u).position →
    (s.settings d).kind = .damper → cs.getLsbD d.val = true →
    (s.advance u).firstDamp d = some (k, m, r) → (∀ j, j ≠ d → (s.advance u).firstDamp j = none) →
    (∀ j, ((s.advance u).consumeDamp k d).firstDamp j = none) →
    m ≤ s.clock.timeOf c.position - (s.settings d).damperLead →
    ∃ t, exec (.readerTakeItem u) s = .next t ∧ (t.damper d).targetRaised = raise ∧ t.firstDamp d = none

/-- A roll's next stroke is an item before any record at a later position: it becomes an entry of the strike queue on the roll's next preferred channel, the voice's other channel behind it, with the roll flag set; the roll moves on by 16 subticks a tick of its interval, with the other channel next, and leaves the table where its end is reached; the cursor stands (R48, R54). -/
def Claims.ReaderTakesTheStrokes : Prop :=
  ∀ (s : State) (u : Nat) (k : Fin 4) (x : RollRecord) (primary : Chan) (alternate : Option Chan),
    s.reads u (.stroke k x) → s.reader.mute = none → s.voiceChannels x.voice = some (primary, alternate) →
    let other : Option Chan := match alternate with
      | none => none
      | some a => if x.nextPreferred = primary then some a else some primary
    let moved : RollRecord := { x with next := x.next + 16 * x.interval, nextPreferred := other.getD x.nextPreferred }
    let r : Reader := { s.reader.crossTo x.next with
      busyUntil := s.at u + 2, rolls := s.reader.rolls.set k (if moved.next < x.ends then some moved else none) }
    let e := s.plannedStrike x.next x.voice x.velocity x.nextPreferred other true
    s.reader.rolls[k] = some x
      ∧ (∀ (j : Fin 4) (y : RollRecord), s.reader.rolls[j] = some y → x.next ≤ y.next)
      ∧ (∀ c, s.reader.cursor = some c → x.next < c.position)
      ∧ (s.joinsQueue u e → exec (.readerTakeItem u) s = .next
          (((s.advance u).setReader r).setPlanner { s.planner with queue := insertStrike e s.planner.queue }))
      ∧ (64 ≤ s.planner.queue.length → exec (.readerTakeItem u) s = .next (s.advance u))

/-- A strike that meets an entry of its position and voice: an ARMED entry, and one of its velocity or more, stands, and the strike is discarded; a PLANNED entry of less velocity takes the strike's velocity, with its projection and figures made anew, and keeps its channels and its roll flag (R64). -/
def Claims.ReaderMergesStrikes : Prop :=
  ∀ (s : State) (u : Nat) (c : Cursor) (voice velocity : Nat) (pre post : List StrikeEntry) (x : StrikeEntry),
    s.reads u (.record c) → s.strikesOrdered → s.recordAtCursor c = .strike voice velocity → velocity ≠ 0 →
    (s.voiceChannels voice).isSome = true → s.reader.mute = none → s.planner.queue.length < 64 →
    s.planner.queue = pre ++ x :: post → x.pos = c.position → x.voice = voice →
    let t := (s.advance u).setReader (s.pastRecord u c)
    let f := s.figures x.preferred (min velocity 127)
    let fire := s.clock.timeOf c.position - f.flight
    (x.isArmed = true ∨ min velocity 127 ≤ x.velocity → exec (.readerTakeItem u) s = .next t)
      ∧ (x.isArmed = false → x.velocity < min velocity 127 → s.projects c.position = true →
          x.deferred = true ∨ s.at u < fire - 2000 →
          exec (.readerTakeItem u) s = .next (t.setPlanner { s.planner with queue := pre ++
            { x with
              velocity := min velocity 127, projected := some fire, width := f.width, flight := f.flight
              weak := f.weak } :: post }))

/-- A STRIKE and a ROLL of velocity 0, and a STRIKE in a bar of the mute window, are rests: the reader passes them and nothing is raised. One for a voice without a primary channel is passed and raises UNASSIGNED_VOICE with the voice. A ROLL of interval 0 or duration 0 is one strike; one that finds the roll table full is one strike too and raises ROLL_DEGRADED with the voice (R50, R53, R56). -/
def Claims.ReaderPassesRestsAndDegradesRolls : Prop :=
  ∀ (s : State) (u : Nat) (c : Cursor), s.reads u (.record c) →
    let t := (s.advance u).setReader (s.pastRecord u c)
    let go := exec (.readerTakeItem u) s
    (∀ voice, s.recordAtCursor c = .strike voice 0 → go = .next t)
      ∧ (∀ voice duration interval, s.recordAtCursor c = .roll voice 0 duration interval → go = .next t)
      ∧ (∀ voice velocity, velocity ≠ 0 → s.voiceChannels voice = none →
          s.recordAtCursor c = .strike voice velocity
            ∨ (∃ duration interval, s.recordAtCursor c = .roll voice velocity duration interval) →
          go = .next (t.raise srcUnassignedVoice voice).reportThenLeave)
      ∧ (∀ voice velocity (p : Piece) (w : MuteWindow) bar, s.recordAtCursor c = .strike voice velocity → velocity ≠ 0 →
          (s.voiceChannels voice).isSome = true → s.station.activePiece = some p → s.reader.mute = some w →
          w.piece.toNat = p.val → barOf (s.pastRecord u c).barMap c.position = some bar → w.startBar ≤ bar →
          bar ≤ w.stopBar → go = .next t)
      ∧ (∀ voice velocity duration interval primary alternate, velocity ≠ 0 →
          s.recordAtCursor c = .roll voice velocity duration interval →
          s.voiceChannels voice = some (primary, alternate) → s.reader.mute = none →
          let e := s.plannedStrike c.position voice (min velocity 127) primary alternate false
          let queued : State → State := fun t => t.setPlanner { s.planner with queue := insertStrike e s.planner.queue }
          (interval = 0 ∨ duration = 0 → s.joinsQueue u e → go = .next (queued t))
            ∧ (interval ≠ 0 → duration ≠ 0 → s.reader.freeSlot = none → s.joinsQueue u e →
                go = .next (queued (t.raise srcRollDegraded voice)).reportThenLeave)
            ∧ (interval = 0 ∨ duration = 0 ∨ s.reader.freeSlot = none → 64 ≤ s.planner.queue.length →
                go = .next (s.advance u)))

/-- The meter: a BAR at `p` is a pending change at the first beat start at or after `p`, the beats of a bar between 1 and 15; the next bar line is that change where it lies at or before the ordinary line, else the ordinary line, beats-per-bar beats on, its bar one more up to 65,535; a line is crossed at or below the position (R52). A BAR whose beat start is the line the meter stands on changes that bar itself (model's choice, log 33). -/
def Claims.MetersFollowBarRecords : Prop :=
  ∀ (m : Meter) (p : Pos) (bpb bar : Nat),
    let first := 7680 * ((p + 7679) / 7680)
    let beats := max 1 (min bpb 15)
    let line := m.barStart + 7680 * m.bpb
    (m.setBar p bpb bar =
        if first = m.barStart then { m with bpb := beats, bar := bar, change := none }
        else { m with change := some { pos := first, bpb := beats, bar := bar } })
      ∧ (∀ ch, m.change = some ch → ch.pos ≤ line → m.step p =
          if ch.pos ≤ p then some { barStart := ch.pos, bpb := ch.bpb, bar := ch.bar, change := none } else none)
      ∧ ((∀ ch, m.change = some ch → line < ch.pos) → m.step p =
          if line ≤ p then some { m with barStart := line, bar := if m.bar < 65535 then m.bar + 1 else m.bar } else none)

/-- A bar line that the scan meter stands on, with the cursor at it or beyond, is reached when no BAR or TEMPO record is left at its position before an END. A start-bar scan is met by a line of the start bar's number or more, an entry scan by a line at or after the entry threshold that the clock has then (R59). -/
def Claims.LinesAreReachedAndMeetTheTarget : Prop :=
  ∀ (s : State) (sc : Scan),
    let next := fun k : Nat => Nat.iterate s.nextCursor k sc.cursor
    (sc.meter.barStart ≤ sc.cursor.position → (s.lineReached sc = true ↔
        ¬∃ k, (∀ j ≤ k, (next j).position = sc.meter.barStart ∧ s.recordAtCursor (next j) ≠ .event .endOfPart)
          ∧ ((∃ us, s.recordAtCursor (next k) = .event (.tempo us))
            ∨ ∃ bpb bar, s.recordAtCursor (next k) = .event (.bar bpb bar))))
      ∧ (∀ n, sc.target = .startBar n → (s.targetMet sc = true ↔ n ≤ sc.meter.bar))
      ∧ (sc.target = .entry →
          (s.targetMet sc = true ↔ ∃ threshold, s.clock.entryThreshold = some threshold ∧ threshold ≤ sc.meter.barStart))

/-- The lines up to the next record are tested in turn: as long as there is a line to test, a held record to note or a line to cross, that is done and the test goes on; where there is none, nothing changes. A line at or below the next record, with nothing held back, is crossed and is then to be tested; one that is reached and does not meet its target is passed (R59). -/
def Claims.LinesAreTestedInTurn : Prop :=
  ∀ (s : State) (sc : Scan), s.reader.scan = some sc → sc.lawful →
    (s.scanLine sc = none → s.testLines = s)
      ∧ (∀ t, s.scanLine sc = some t → s.testLines = t.testLines)
      ∧ (∀ m, sc.lineUntested = false → sc.held = [] → sc.meter.step sc.cursor.position = some m →
          s.testLines = (s.setReader { s.reader with scan := some { sc with meter := m, lineUntested := true } }).testLines)
      ∧ (sc.lineUntested = true → s.lineReached sc = true → s.targetMet sc = false →
          s.testLines = (s.setReader { s.reader with scan := some { sc with lineUntested := false } }).testLines)
      ∧ ((sc.lineUntested = true → s.lineReached sc = false) → sc.held = [] →
          sc.meter.step sc.cursor.position = none → s.testLines = s)

/-- The scan's meter, its pending change and its held records stay lawful: no line lies beyond the next record, the next line lies a beat or more ahead, and no BAR or TEMPO is held back (R52, R58, R60). -/
def Claims.ScanStaysLawful : Prop := ∀ s t : State, s.scanLawful → step s = .next t → t.scanLawful

/-- The scan takes the record at its cursor, notes what it carries, and tests the bar lines up to the next record: a TEMPO, a ROTOR target and the direction of each damper, the latest prevailing; strikes, rolls and unknown records are passed over (R58, R59). A line that is reached and does not meet the target is passed, and one with a BAR or TEMPO record still ahead waits for it (R59). A HOLD, a DAMP and a ROTOR with a BAR or TEMPO of their position still ahead are held back, to be noted when the bar line there has failed the target (R60; model's reading, log 58). That one command also tests the bar lines up to the next record is the model's choice (log 31). -/
def Claims.ScanNotesTheRecord : Prop :=
  ∀ (s : State) (u : Nat) (sc : Scan), s.steady = true → s.station.state.playingState = true → s.reader.state = .scanning →
    s.reader.busyUntil ≤ s.at u → s.reader.scan = some sc →
    (sc.lineUntested = true → s.lineReached sc = true → s.targetMet sc = false) → sc.held = [] →
    sc.meter.step sc.cursor.position = none →
    let moved : Scan := { sc with
      lineUntested := sc.lineUntested && !s.lineReached sc
      cursor := s.nextCursor sc.cursor
      groupStart := if sc.groupStart.pos = sc.cursor.pos then sc.groupStart else sc.cursor }
    let after := fun (x : Scan) => (((s.advance u).setReader
      { s.reader with scan := some x, busyUntil := s.at u + 2 }).testLines).settle
    let ahead := s.meterAhead sc.cursor.position (s.nextCursor sc.cursor)
    (∀ us, s.recordAtCursor sc.cursor = .event (.tempo us) →
      exec (.scanRecord u) s = .next (after { moved with tempo := some us }))
      ∧ (∀ k, s.recordAtCursor sc.cursor = .event (.rotor k) → ahead = false →
          exec (.scanRecord u) s = .next (after { moved with rotor := some k }))
      ∧ (∀ bpb bar, s.recordAtCursor sc.cursor = .event (.bar bpb bar) →
          exec (.scanRecord u) s = .next (after { moved with meter := sc.meter.setBar sc.cursor.position bpb bar }))
      ∧ (∀ k owner ms limit first, s.recordAtCursor sc.cursor = .event (.hold k owner ms limit) → sc.target = .startBar first →
          ahead = false →
          exec (.scanRecord u) s = .next (after { moved with lastHold := some k }))
      ∧ (∀ v w, s.recordAtCursor sc.cursor = .strike v w → exec (.scanRecord u) s = .next (after moved))
      ∧ (∀ v w d i, s.recordAtCursor sc.cursor = .roll v w d i → exec (.scanRecord u) s = .next (after moved))
      ∧ (s.recordAtCursor sc.cursor = .unknown → exec (.scanRecord u) s = .next (after moved))
      ∧ (∀ raise cs, s.recordAtCursor sc.cursor = .event (.damp raise cs) → ahead = false → ∃ notes : Vector (Option Bool) 24,
          (∀ c : Chan, notes[c] = if (s.settings c).kind = .damper ∧ cs.getLsbD c.val = true then some raise else sc.dampers[c])
            ∧ exec (.scanRecord u) s = .next (after { moved with dampers := notes }))
      ∧ (∀ k, s.recordAtCursor sc.cursor = .event k → k.ofMeter = false → k ≠ .endOfPart → ahead = true →
          exec (.scanRecord u) s = .next (after { moved with held := [k] }))

/-- An END before the target of the scan: the station enters READY with no piece and the reader idle (R35, R43, R61). -/
def Claims.ScanEndEndsThePiece : Prop :=
  ∀ (s : State) (u : Nat) (sc : Scan), s.steady = true → s.awake = true →
    s.station.state = .countin ∨ s.station.state = .rejoining → s.reader.state = .scanning →
    s.reader.busyUntil ≤ s.at u → s.reader.scan = some sc → sc.lineUntested = false → sc.held = [] →
    sc.meter.step sc.cursor.position = none → s.recordAtCursor sc.cursor = .event .endOfPart →
    ∃ t, exec (.scanRecord u) s = .next t ∧ t.station.state = .ready ∧ t.station.activePiece = none
      ∧ t.reader.state = .idle ∧ t.planner.queue = [] ∧ t.confirm = []

/-- The line test, in whichever round of a command it comes to it: the scan's line that meets a start bar ahead of the position: the start position is corrected and the reader goes on from the first record at the line (R34, R60). -/
def Claims.LineTestHandsOverTheStartBar : Prop :=
  ∀ (s : State) (sc : Scan) (n : Nat), sc.lineUntested = true → s.lineReached sc = true → sc.target = .startBar n →
    n ≤ sc.meter.bar → s.position < sc.meter.barStart → sc.rotor = none → (∀ c : Chan, sc.dampers[c] = none) →
    sc.lastHold = none → s.reader.timeline.length ≤ 16 →
    let bar := FoundBar.mk sc.meter.bpb sc.meter.bar (sc.tempo.map fun k => (k : Int))
    let p := StartPosition.mk sc.meter.barStart (some bar)
    s.scanLine sc = some ((s.setClock { s.clock with start := some p }).setReader
      { s.reader with
        state := .reading, scan := none, meter := some { sc.meter with change := none }
        barMap := [(sc.meter.barStart, sc.meter.bar)]
        cursor := some (if sc.groupStart.pos = sc.meter.barStart then sc.groupStart else sc.cursor) })

/-- The line test, in whichever round of a command it comes to it: the line at or after the entry threshold that an entry scan reaches is the entry bar: the clock takes its position and meter, the noted rotor target is placed there, and the reader goes on from the first record at the line (R43, R59, R60). -/
def Claims.LineTestHandsOverTheEntryBar : Prop :=
  ∀ (s : State) (sc : Scan) (threshold : Pos), sc.lineUntested = true → s.lineReached sc = true → sc.target = .entry →
    s.clock.entryThreshold = some threshold → threshold ≤ sc.meter.barStart → s.position < sc.meter.barStart →
    (∀ c : Chan, sc.dampers[c] = none) → s.reader.timeline.length < 16 →
    s.scanLine sc = some ((s.setClock
        { s.clock with entryBar := some { pos := sc.meter.barStart, bpb := sc.meter.bpb, bar := sc.meter.bar } }).setReader
      { s.reader with
        state := .reading, scan := none, meter := some { sc.meter with change := none }
        barMap := [(sc.meter.barStart, sc.meter.bar)]
        timeline := (match sc.rotor with
          | some n => insertEvent { pos := sc.meter.barStart, kind := .rotor n } s.reader.timeline
          | none => s.reader.timeline)
        cursor := some (if sc.groupStart.pos = sc.meter.barStart then sc.groupStart else sc.cursor) })

/-- SCAN_RECORD finds the scan's line reached, with a start bar ahead of the position: the start position is corrected, the latest hold noted is the last hold passed and a remembered release at or below it is forgotten, the noted states are placed at the line, and the reader goes on from the first record at the line. With nothing noted of rotor and dampers nothing else changes (R34, R59, R60). -/
def Claims.ScanHandsOverTheStartBar : Prop :=
  ∀ (s : State) (u : Nat) (sc : Scan) (n : Nat), s.scans u sc → sc.lineUntested = true → s.lineReached sc = true →
    sc.target = .startBar n → n ≤ sc.meter.bar → (s.advance u).position < sc.meter.barStart →
    s.reader.timeline.length + sc.events.length ≤ 16 →
    let bar := FoundBar.mk sc.meter.bpb sc.meter.bar (sc.tempo.map fun k => (k : Int))
    let p := StartPosition.mk sc.meter.barStart (some bar)
    let c : Clock := match sc.lastHold with
      | none => { s.clock with start := some p }
      | some k => { s.clock with
          start := some p, lastPassed := some k, remembered := s.clock.remembered.filter fun r => k < r }
    let placed := sc.events.foldl (fun t k => t.placeEvent sc.meter.barStart k) ((s.advance u).setClock c)
    let read := fun r : Reader => { r with
      state := .reading, scan := none, meter := some { sc.meter with change := none }
      barMap := [(sc.meter.barStart, sc.meter.bar)]
      cursor := some (if sc.groupStart.pos = sc.meter.barStart then sc.groupStart else sc.cursor) }
    exec (.scanRecord u) s = .next (placed.setReader (read placed.reader)).settle
      ∧ (sc.rotor = none → (∀ d : Chan, sc.dampers[d] = none) →
          exec (.scanRecord u) s = .next (((s.advance u).setClock c).setReader (read s.reader)))

/-- A start bar that the scan finds at or behind the position sends the station to REJOINING with its clock running: the strike queue is flushed, the entry threshold is the first beat start at least a beat ahead, and the scan keeps its place, its meter and its notes, takes the threshold as its target and carries on with its next record, here a strike; the latest hold noted is handed to the clock before (R34, R35, R46, R60). -/
def Claims.StartBarFoundTooLateRejoins : Prop :=
  ∀ (s : State) (u : Nat) (sc : Scan) (n v w : Nat), s.scans u sc → s.awake = true → s.station.state = .countin →
    sc.lineUntested = true → s.lineReached sc = true → sc.target = .startBar n → n ≤ sc.meter.bar →
    sc.meter.barStart ≤ (s.advance u).position → s.reader.timeline.length + sc.events.length ≤ 16 → sc.held = [] →
    sc.meter.step sc.cursor.position = none → s.recordAtCursor sc.cursor = .strike v w →
    let here := (s.advance u).position
    let moved : Scan := { sc with
      target := .entry, lineUntested := false, cursor := s.nextCursor sc.cursor
      groupStart := if sc.groupStart.pos = sc.cursor.pos then sc.groupStart else sc.cursor }
    ∃ left : State, exec (.scanRecord u) s = .next left.testLines.settle
      ∧ left.station = { s.station with state := .rejoining }
      ∧ left.clock = { s.clock with
          start := none, entryThreshold := some (7680 * ((here + 15359) / 7680)), entryBar := none, selfOutliers := 0
          lastPassed := (match sc.lastHold with
            | none => s.clock.lastPassed
            | some k => some k)
          remembered := (match sc.lastHold with
            | none => s.clock.remembered
            | some k => s.clock.remembered.filter fun r => k < r) }
      ∧ left.reader = { s.reader with scan := some moved, busyUntil := s.at u + 2 }
      ∧ left.planner.queue = [] ∧ left.port.hasUnsent TxFrame.isMark = false
      ∧ (s.advance u).changesOnly [.station, .clock, .reader, .planner, .port] left
      ∧ (sc.meter.step (s.nextCursor sc.cursor).position = none →
          left.testLines = left ∧ ∃ t, exec (.scanRecord u) s = .next t ∧ t.station.state = .rejoining
            ∧ t.reader = left.reader ∧ t.clock = left.clock ∧ t.planner = left.planner)

/-- SCAN_RECORD finds the scan's line reached, at or after the entry threshold of an entry scan: it is the entry bar. The clock takes its position and meter, the noted states are placed there, and the reader goes on from the first record at the line. With no damper noted, nothing else changes than the noted rotor target's event (R43, R59, R60). -/
def Claims.ScanHandsOverTheEntryBar : Prop :=
  ∀ (s : State) (u : Nat) (sc : Scan) (threshold : Pos), s.scans u sc → sc.lineUntested = true → s.lineReached sc = true →
    sc.target = .entry → s.clock.entryThreshold = some threshold → threshold ≤ sc.meter.barStart →
    s.reader.timeline.length + sc.events.length ≤ 16 →
    let bar := EntryBar.mk sc.meter.barStart sc.meter.bpb sc.meter.bar
    let c : Clock := { s.clock with entryBar := some bar }
    let placed := sc.events.foldl (fun t k => t.placeEvent sc.meter.barStart k) ((s.advance u).setClock c)
    let read := fun r : Reader => { r with
      state := .reading, scan := none, meter := some { sc.meter with change := none }
      barMap := [(sc.meter.barStart, sc.meter.bar)]
      cursor := some (if sc.groupStart.pos = sc.meter.barStart then sc.groupStart else sc.cursor) }
    exec (.scanRecord u) s = .next (placed.setReader (read placed.reader)).settle
      ∧ ((∀ d : Chan, sc.dampers[d] = none) → (s.advance u).position < sc.meter.barStart →
          exec (.scanRecord u) s = .next (((s.advance u).setClock c).setReader { read s.reader with
            timeline := (match sc.rotor with
              | some n => insertEvent { pos := sc.meter.barStart, kind := .rotor n } s.reader.timeline
              | none => s.reader.timeline) }))

/-- The noted states make at most three events: the dampers noted RAISED in one raise, those noted LOWERED in one lower, the rotor target in one ROTOR; with too little room for them the hand-over waits. A line that does not meet the target is passed (R59, R60; log 30). -/
def Claims.ScanGathersTheNotedStates : Prop :=
  ∀ (s : State) (sc : Scan),
    (∀ (c : Chan) (raise : Bool), (sc.noted raise).getLsbD c.val = true ↔ sc.dampers[c] = some raise)
      ∧ (∀ raise cs, EventKind.damp raise cs ∈ sc.events ↔ cs = sc.noted raise ∧ cs ≠ 0)
      ∧ (∀ n, EventKind.rotor n ∈ sc.events ↔ sc.rotor = some n) ∧ sc.events.length ≤ 3
      ∧ (sc.lineUntested = true → s.targetMet sc = true → 16 < s.reader.timeline.length + sc.events.length →
          s.scanLine sc = none ∧ (∀ u, s.scans u sc → s.lineReached sc = true →
            exec (.scanRecord u) s = .next (s.advance u)))
      ∧ (sc.lineUntested = true → s.lineReached sc = true →
          (∀ n, sc.target = .startBar n → sc.meter.bar < n) →
          (sc.target = .entry → ∀ threshold, s.clock.entryThreshold = some threshold → sc.meter.barStart < threshold) →
          s.scanLine sc = some (s.setReader { s.reader with scan := some { sc with lineUntested := false } }))
      ∧ ∀ n rest, sc.lineUntested = false → sc.held = .rotor n :: rest → sc.meter.step sc.groupStart.position = none →
          s.meterAhead sc.groupStart.position sc.cursor = false →
          s.scanLine sc = some (s.setReader { s.reader with scan := some { sc with held := rest, rotor := some n } })

/-- A HOLD that an entry scan takes: below the clock's position it is the last hold passed, and a remembered release at or below its number is forgotten; at or above it is placed in the timeline list, and waits where that is full (R43, R58). -/
def Claims.EntryScanTakesItsHolds : Prop :=
  ∀ (s : State) (u : Nat) (sc : Scan) (k : Nat) (owner : Bool) (ms limit : Nat), s.steady = true → s.station.state = .rejoining →
    s.clock.isSet = true → s.reader.state = .scanning → s.reader.busyUntil ≤ s.at u → s.reader.scan = some sc →
    sc.target = .entry → sc.lineUntested = false → sc.held = [] → sc.meter.step sc.cursor.position = none →
    s.recordAtCursor sc.cursor = .event (.hold k owner ms limit) →
    s.meterAhead sc.cursor.position (s.nextCursor sc.cursor) = false →
    let r : Reader := { s.reader with
      busyUntil := s.at u + 2
      scan := some { sc with
        cursor := s.nextCursor sc.cursor
        groupStart := if sc.groupStart.pos = sc.cursor.pos then sc.groupStart else sc.cursor } }
    let here := (s.advance u).position
    (sc.cursor.position < here → exec (.scanRecord u) s = .next
        (((s.advance u).setReader r).setClock
          { s.clock with
            lastPassed := some k, remembered := s.clock.remembered.filter fun n => k < n }).testLines.settle)
      ∧ (here ≤ sc.cursor.position → s.reader.timeline.length < 16 → exec (.scanRecord u) s = .next
          ((s.advance u).setReader { r with
            timeline := insertEvent { pos := sc.cursor.position, kind := .hold k owner ms limit } s.reader.timeline
            }).testLines.settle)
      ∧ (here ≤ sc.cursor.position → 16 ≤ s.reader.timeline.length →
          exec (.scanRecord u) s = .next (s.advance u))

/-- A scan goes on only in a playing state, when its last record has taken its 2 µs (R58). That it goes on in the playing states only is the model's reading (log 29). -/
def Claims.ScanWaitsItsTime : Prop :=
  ∀ (s : State) (u : Nat), s.steady = true →
    s.station.state.playingState = false ∨ s.reader.state ≠ .scanning ∨ s.at u < s.reader.busyUntil →
    exec (.scanRecord u) s = .next (s.advance u)

/-! ## Strikes -/

/-- The width of a strike, its weak flag and its flight at the rail's accepted reading, no less than cut (R66, R67, R68). -/
def Claims.WidthIsCompensatedForTheRail : Prop :=
  ∀ (s : State) (c : Chan) (v : Nat),
    let cs := s.settings c
    let r : Int := max (max (s.rail.accepted : Int) s.options.cut) 1
    let w := rhu ((cs.baseW + trunc (v * cs.slopeW) 16) * s.options.nom) r
    (s.figures c v).width = clamp cs.minW cs.maxW w ∧ (s.figures c v).weak = decide (cs.maxW < w)
      ∧ (s.figures c v).flight = clamp 500 60000
          (rhu ((cs.flightMin + trunc ((127 - v) * cs.flightSpan + 63) 126) * s.options.nom) r + (s.channel c).trim)

/-- The flight of a strike: from flight_span more at velocity 1 to none more at 127, compensated for the rail, with the channel's trim added before the clamp (R68). -/
def Obligations.FlightFollowsVelocityRailAndTrim : Prop :=
  ∀ (s : State) (c : Chan) (v : Nat),
    let cs := s.settings c
    let r : Int := max (max (s.rail.accepted : Int) s.options.cut) 1
    (s.figures c v).flight = clamp 500 60000
        (rhu ((cs.flightMin + trunc ((127 - v) * cs.flightSpan + 63) 126) * s.options.nom) r + (s.channel c).trim)
      ∧ (0 ≤ cs.flightSpan → rawFlight cs 1 = cs.flightMin + cs.flightSpan ∧ rawFlight cs 127 = cs.flightMin)

/-- The first entry in queue order whose arm moment has come arms on its preferred channel, where that is idle and its fire time has not passed: written and effective fire times are its projected time, with the figures of that channel; WEAK is raised for a weak strike. With no channel to take, the entry is dropped with DROPPED_CHANNEL and counted on its preferred channel (R67, R68, R73 to R77). -/
def Claims.ArmMomentArmsTheFirstDueEntry : Prop :=
  ∀ (s : State) (u : Nat) (pre post : List StrikeEntry) (e : StrikeEntry), s.steady = true → s.awake = true → s.strikesOrdered →
    s.planner.queue = pre ++ e :: post → (∀ x ∈ pre, (s.advance u).armDue x = false) → (s.advance u).armDue e = true →
    let c := e.preferred
    let f := s.figures c e.velocity
    let fire := s.clock.timeOf e.pos - f.flight
    let armed : StrikeEntry := { e with
      phase := .armed c fire fire, width := f.width, flight := f.flight, weak := f.weak }
    let t := (s.advance u).setPlanner { s.planner with queue := pre ++ armed :: post }
    ((s.channel c).disabled = none → (s.channel c).pulse = none → (s.channel c).recoveryEnd = none → s.armedOn c = none →
      s.at u ≤ fire → 0 ≤ s.options.lateTol →
      exec (.armMoment u) s = .next (if f.weak = true then (t.raise srcWeak c.val).reportThenLeave else t))
      ∧ ((s.channel c).disabled ≠ none → (∀ d, e.other = some d → (s.channel d).disabled ≠ none) →
          ∃ t, exec (.armMoment u) s = .next t
            ∧ (t.channel c).dropped = step16 (s.channel c).dropped
            ∧ t.item srcDroppedChannel = some (raisedItem (s.item srcDroppedChannel) e.voice (s.at u))
            ∧ ∀ x ∈ t.planner.queue, x.sameKey e = false)

/-- The choice of a channel where the preferred one does not pass, being DISABLED, holding an armed strike or not free in time. The other channel is taken if it passes. With every usable candidate holding an armed strike the entry is deferred and stays PLANNED with its preferred channel's figures. Where none holds one and none is free in time, the candidate that is free soonest is taken, the preferred one on a tie, and fires when it is free; later than late_tol the entry is dropped with DROPPED_LATE, counted on that channel (R74 to R77). -/
def Claims.ArmMomentChoosesByTheFreeTimes : Prop :=
  ∀ (s : State) (u : Nat) (pre post : List StrikeEntry) (e : StrikeEntry), s.steady = true → s.awake = true → s.strikesOrdered →
    s.planner.queue = pre ++ e :: post → (∀ x ∈ pre, (s.advance u).armDue x = false) → (s.advance u).armDue e = true →
    0 ≤ s.options.lateTol →
    let c := e.preferred
    let f := fun d : Chan => s.figures d e.velocity
    let fire := fun d : Chan => s.clock.timeOf e.pos - (f d).flight
    let armed := fun (d : Chan) (effective : Time) => ({ e with
      phase := .armed d (fire d) effective, width := (f d).width, flight := (f d).flight, weak := (f d).weak } : StrikeEntry)
    let queued := fun x : StrikeEntry => (s.advance u).setPlanner { s.planner with queue := pre ++ x :: post }
    let arms := fun (d : Chan) (effective : Time) =>
      if (f d).weak = true then ((queued (armed d effective)).raise srcWeak d.val).reportThenLeave else queued (armed d effective)
    (∀ d, e.other = some d → (s.channel c).disabled ≠ none ∨ s.armedOn c ≠ none ∨ fire c < s.freeAt u c →
      (s.channel d).disabled = none → s.armedOn d = none → s.freeAt u d ≤ fire d → s.at u ≤ fire d →
      exec (.armMoment u) s = .next (arms d (fire d)))
      ∧ ((∃ d ∈ e.candidates, (s.channel d).disabled = none) →
          (∀ d ∈ e.candidates, (s.channel d).disabled = none → s.armedOn d ≠ none) →
          exec (.armMoment u) s = .next (queued
            { e with phase := .planned true, width := (f c).width, flight := (f c).flight, weak := (f c).weak }))
      ∧ ∀ d, (s.channel c).disabled = none → s.armedOn c = none → fire c < s.freeAt u c →
          (e.other = none ∧ d = c) ∨ (∃ k, e.other = some k ∧ (s.channel k).disabled ≠ none ∧ d = c)
            ∨ (∃ k, e.other = some k ∧ (s.channel k).disabled = none ∧ s.armedOn k = none ∧ fire k < s.freeAt u k
              ∧ d = if s.freeAt u k < s.freeAt u c then k else c) →
          let start := max (s.freeAt u d) (s.at u)
          (start - fire d ≤ s.options.lateTol → exec (.armMoment u) s = .next (arms d start))
            ∧ (s.options.lateTol < start - fire d →
                ∃ t, exec (.armMoment u) s = .next t
                  ∧ (t.channel d).dropped = step16 (s.channel d).dropped
                  ∧ t.item srcDroppedLate = some (raisedItem (s.item srcDroppedLate) d.val (s.at u))
                  ∧ ∀ x ∈ t.planner.queue, x.sameKey e = false)

/-- An entry is due for arming when it is PLANNED with its arming deferred flag clear, it is projected, its arm moment, 2,000 µs before its projected fire time, has come, and the station is in COUNTIN, PLAYING or HOLDING (R71, R73). -/
def Claims.ArmMomentIsTwoMillisecondsAhead : Prop :=
  ∀ (s : State) (e : StrikeEntry), s.armDue e = true ↔
    (s.station.state = .countin ∨ s.station.state = .playing ∨ s.station.state = .holding)
      ∧ e.phase = .planned false ∧ ∃ f, e.projected = some f ∧ f - 2000 ≤ s.now

/-- Neither candidate passes, whether for an armed strike or for not being free in time, and the other one is usable: of the usable candidates the one with the earliest free time is taken, the preferred one on a tie, an armed strike's pulse and recovery counted in its channel's free time. If it holds an armed strike, the entry is deferred; if not, the entry arms on it and fires when it is free, or is dropped with DROPPED_LATE beyond late_tol, counted on that channel (R74 to R77). -/
def Claims.ArmMomentTakesTheSoonestChannel : Prop :=
  ∀ (s : State) (u : Nat) (pre post : List StrikeEntry) (e : StrikeEntry) (d : Chan), s.steady = true → s.awake = true →
    s.strikesOrdered → s.planner.queue = pre ++ e :: post → (∀ x ∈ pre, (s.advance u).armDue x = false) →
    (s.advance u).armDue e = true → 0 ≤ s.options.lateTol → e.other = some d →
    let c := e.preferred
    let f := fun x : Chan => s.figures x e.velocity
    let fire := fun x : Chan => s.clock.timeOf e.pos - (f x).flight
    let fails := fun x : Chan => (s.channel x).disabled ≠ none ∨ s.armedOn x ≠ none ∨ fire x < s.freeAt u x
    let g := if (s.channel c).disabled = none ∧ s.freeWithArmed u c ≤ s.freeWithArmed u d then c else d
    let start := max (s.freeAt u g) (s.at u)
    let queued := fun x : StrikeEntry => (s.advance u).setPlanner { s.planner with queue := pre ++ x :: post }
    let armed : StrikeEntry := { e with
      phase := .armed g (fire g) start, width := (f g).width, flight := (f g).flight, weak := (f g).weak }
    (s.channel d).disabled = none → fails c → fails d →
      (s.armedOn g ≠ none → exec (.armMoment u) s = .next (queued
          { e with phase := .planned true, width := (f c).width, flight := (f c).flight, weak := (f c).weak }))
      ∧ (s.armedOn g = none → start - fire g ≤ s.options.lateTol → exec (.armMoment u) s = .next
          (if (f g).weak = true then ((queued armed).raise srcWeak g.val).reportThenLeave else queued armed))
      ∧ (s.armedOn g = none → s.options.lateTol < start - fire g → ∃ t, exec (.armMoment u) s = .next t
          ∧ (t.channel g).dropped = step16 (s.channel g).dropped
          ∧ t.item srcDroppedLate = some (raisedItem (s.item srcDroppedLate) g.val (s.at u))
          ∧ ∀ x ∈ t.planner.queue, x.sameKey e = false)

/-- A strike that the reader takes late, its arm moment past, arms at once on its idle primary channel: at its fire time, or now where that has passed; later than late_tol it is dropped with DROPPED_LATE. An earlier entry of the queue that is due at this moment and wants the channel arms first, and the strike waits for it, deferred (R64, R70, R73 to R77). -/
def Claims.LateStrikeArmsInQueueOrder : Prop :=
  ∀ (s : State) (u : Nat) (k : Cursor) (voice velocity : Nat) (c : Chan), s.reads u (.record k) → s.awake = true →
    s.strikesOrdered → s.recordAtCursor k = .strike voice velocity → velocity ≠ 0 →
    s.voiceChannels voice = some (c, none) → s.reader.mute = none → s.planner.queue.length < 64 →
    (∀ x ∈ s.planner.queue, ¬(x.pos = k.position ∧ x.voice = voice)) → s.allowsArming = true →
    s.projects k.position = true → (s.channel c).disabled = none → (s.channel c).pulse = none →
    (s.channel c).recoveryEnd = none → s.armedOn c = none → 0 ≤ s.options.lateTol →
    let e := s.plannedStrike k.position voice (min velocity 127) c none false
    let fire := s.fireBy s e
    let start := max fire (s.at u)
    fire - 2000 ≤ s.at u →
    ((∀ x ∈ s.planner.queue, x.before e = true → (s.advance u).armDue x = false) →
        (start - fire ≤ s.options.lateTol → ∃ t, exec (.readerTakeItem u) s = .next t
            ∧ { e with phase := .armed c fire start } ∈ t.planner.queue)
          ∧ (s.options.lateTol < start - fire → ∃ t, exec (.readerTakeItem u) s = .next t
              ∧ (t.channel c).dropped = step16 (s.channel c).dropped
              ∧ t.item srcDroppedLate = some (raisedItem (s.item srcDroppedLate) c.val (s.at u))
              ∧ ∀ x ∈ t.planner.queue, x.sameKey e = false))
      ∧ ∀ x ∈ s.planner.queue, x.before e = true → x.preferred = c → (s.advance u).armDue x = true →
          (∀ y ∈ s.planner.queue, y ≠ x → (s.advance u).armDue y = false) → s.at u ≤ s.fireBy s x →
          ∃ t, exec (.readerTakeItem u) s = .next t
            ∧ { s.armedBy s x with projected := x.projected } ∈ t.planner.queue
            ∧ { e with phase := .planned true } ∈ t.planner.queue

/-- With no entry due, ARM_MOMENT passes the time alone (log 2). -/
def Claims.ArmMomentNeedsADueEntry : Prop :=
  ∀ (s : State) (u : Nat), s.steady = true → (∀ x ∈ s.planner.queue, (s.advance u).armDue x = false) →
    exec (.armMoment u) s = .next (s.advance u)

/-- The fire time of an armed strike with a slot free and no claim before it starts its pulse: the entry leaves the queue and the channel drives the width that arming fixed, from this moment on; fired counts, and weak for a weak strike. In CUT the strike is dropped with DROPPED_CUT (R80, R83, R84, R89). -/
def Claims.FireTimeStartsThePulse : Prop :=
  ∀ (s : State) (u : Nat) (c : Chan) (e : StrikeEntry) (written effective : Time), s.steady = true → s.awake = true →
    s.armedOn c = some e → e.phase = .armed c written effective → effective ≤ s.at u → s.planner.claims = [] →
    (s.channel c).disabled = none → (∀ x ∈ s.planner.queue, x.deferredOn [c] = false) →
    (s.rail.band ≠ .cut → s.slotsInUse < s.options.driveSlots → s.at u - written ≤ s.options.lateTol →
      (s.channel c).pulse = none →
      ∃ t, exec (.fireTimeReached u c) s = .next t
        ∧ (t.channel c).pulse = some
            (Pulse.mk (s.at u) e.width e.flight written e.weak (decide (written < s.at u)) e.roll s.rail.band (s.at u + e.width))
        ∧ (t.channel c).fired = step16 (s.channel c).fired
        ∧ (t.channel c).weak = (if e.weak = true then step16 (s.channel c).weak else (s.channel c).weak)
        ∧ (∀ d, d ≠ c → t.channel d = s.channel d)
        ∧ (∀ x ∈ t.planner.queue, x.sameKey e = false)
        ∧ s.changesOnly [.now, .station, .port, .clock, .reader, .planner, .channels, .rotor, .attention] t
        ∧ (s.station.finishing = false → t.rotor = s.rotor))
      ∧ (s.rail.band = .cut →
          ∃ t, exec (.fireTimeReached u c) s = .next t
            ∧ (t.channel c).dropped = step16 (s.channel c).dropped ∧ (t.channel c).pulse = (s.channel c).pulse
            ∧ t.item srcDroppedCut = some (raisedItem (s.item srcDroppedCut) c.val (s.at u))
            ∧ ∀ x ∈ t.planner.queue, x.sameKey e = false)

/-- An entry deferred on a channel arms when the one strike armed there starts its pulse: it fires at its own fire time, or when the channel has recovered, if that is later; later than late_tol it is dropped with DROPPED_LATE (R75, R76, R84, R88). An earlier entry that is due at that moment would arm before it (R73). -/
def Claims.DeferredStrikeArmsWhenItsChannelFires : Prop :=
  ∀ (s : State) (u : Nat) (c : Chan) (e y : StrikeEntry) (written effective : Time), s.steady = true → s.awake = true →
    s.strikesOrdered → s.armedOn c = some e → (∀ x ∈ s.planner.queue, x.armedOn c = true → x = e) →
    e.phase = .armed c written effective → effective ≤ s.at u →
    s.planner.claims = [] → (s.channel c).disabled = none → (s.channel c).pulse = none → s.rail.band ≠ .cut →
    s.slotsInUse < s.options.driveSlots → s.at u - written ≤ s.options.lateTol →
    s.allowsArming = true → y ∈ s.planner.queue → y.phase = .planned true → y.preferred = c → y.other = none →
    y.projected.isSome = true → (∀ x ∈ s.planner.queue, x ≠ y → x.deferredOn [c] = false) →
    (∀ x ∈ s.planner.queue, x.before y = true → (s.advance u).armDue x = false) →
    let fire := s.clock.timeOf y.pos - (s.figures c y.velocity).flight
    let free := s.at u + e.width + ((s.settings c).recBase + trunc (e.width * (s.settings c).recRatio) 16)
    let start := max (max fire (s.at u)) free
    ∃ t, exec (.fireTimeReached u c) s = .next t ∧ (t.channel c).pulse.isSome = true
      ∧ (start - fire ≤ s.options.lateTol →
          ∃ x ∈ t.planner.queue, x.sameKey y = true ∧ x.phase = .armed c fire start)
      ∧ (s.options.lateTol < start - fire → (∀ x ∈ t.planner.queue, x.sameKey y = false)
          ∧ (t.channel c).dropped = step16 (s.channel c).dropped
          ∧ t.item srcDroppedLate = some (raisedItem (s.item srcDroppedLate) c.val (s.at u)))

/-- A strike whose channel is DISABLED at its fire time is taken off it and chosen anew: it is armed on the other channel for the fire time there, or fires there at once where that has passed; with no candidate left it is dropped with DROPPED_CHANNEL, counted on its preferred channel (R74 to R78, R80). -/
def Claims.StrikeOfADisabledChannelIsChosenAnew : Prop :=
  ∀ (s : State) (u : Nat) (c : Chan) (e : StrikeEntry) (written effective : Time), s.steady = true → s.awake = true →
    s.strikesOrdered → s.armedOn c = some e → e.phase = .armed c written effective → effective ≤ s.at u →
    s.planner.claims = [] → (s.channel c).disabled ≠ none → (∀ x ∈ s.planner.queue, x.deferredOn [c] = false) →
    c ∈ e.candidates → 0 ≤ s.options.lateTol →
    (∀ d ∈ e.candidates, d ≠ c → (s.channel d).disabled = none → s.armedOn d = none → (s.channel d).pulse = none →
      (s.channel d).recoveryEnd = none →
      let f := s.figures d e.velocity
      let fire := s.clock.timeOf e.pos - f.flight
      (s.at u < fire → ∃ t, exec (.fireTimeReached u c) s = .next t
          ∧ { e with phase := .armed d fire fire, width := f.width, flight := f.flight, weak := f.weak } ∈ t.planner.queue
          ∧ t.planner.claims = [] ∧ t.channels = s.channels)
        ∧ (fire ≤ s.at u → s.at u - fire ≤ s.options.lateTol → s.rail.band ≠ .cut → s.slotsInUse < s.options.driveSlots →
            ∃ t, exec (.fireTimeReached u c) s = .next t
              ∧ (t.channel d).pulse = some
                  (Pulse.mk (s.at u) f.width f.flight fire f.weak (decide (fire < s.at u)) e.roll s.rail.band (s.at u + f.width))
              ∧ ∀ x ∈ t.planner.queue, x.sameKey e = false))
      ∧ ((∀ d ∈ e.candidates, (s.channel d).disabled ≠ none) → ∃ t, exec (.fireTimeReached u c) s = .next t
          ∧ (t.channel e.preferred).dropped = step16 (s.channel e.preferred).dropped
          ∧ t.item srcDroppedChannel = some (raisedItem (s.item srcDroppedChannel) e.voice (s.at u))
          ∧ ∀ x ∈ t.planner.queue, x.sameKey e = false)

/-- With no slot free the strike's claim joins the claimant list, in order of written fire time, then channel (R80, R81). -/
def Claims.FireTimeClaimsASlot : Prop :=
  ∀ (s : State) (u : Nat) (c : Chan) (e : StrikeEntry) (written effective : Time), s.steady = true →
    s.armedOn c = some e → e.phase = .armed c written effective → effective ≤ s.at u → s.claimWaits c = false →
    (s.channel c).disabled = none → s.rail.band ≠ .cut → s.options.driveSlots ≤ s.slotsInUse →
    exec (.fireTimeReached u c) s = .next ((s.advance u).setPlanner { s.planner with
      claims := insertClaim { due := written, channel := c, kind := .strike } s.planner.claims })

/-- A strike fires at the moment its channel's last pulse ends, on the one slot that stands free: that pulse ends, and its slot goes to the first of the strikes whose fire times have come at this moment as well, in order of written fire time, then channel, the other's claim waiting (R79, R80, R81, R89). That the strike whose command comes first takes the slot that stands free is the model's choice (log 83). -/
def Claims.FireTimeEndsTheLastPulse : Prop :=
  ∀ (s : State) (u : Nat) (c a b : Chan) (p : Pulse) (e x y : StrikeEntry) (we wx wy fe fx fy : Time), s.steady = true →
    s.awake = true → s.slotsLawful → s.strikesOrdered → (s.channel c).pulse = some p → p.ends ≤ s.at u →
    s.confirm.length < 32 → s.at u < p.start + p.flight - s.options.winEarly →
    s.rail.band ≠ .cut → s.slotsInUse + 1 = s.options.driveSlots → s.planner.claims = [] →
    e ∈ s.planner.queue → x ∈ s.planner.queue → y ∈ s.planner.queue →
    (∀ z ∈ s.planner.queue, z.isArmed = true → z = e ∨ z = x ∨ z = y) → (∀ z ∈ s.planner.queue, z.deferred = false) →
    e.phase = .armed c we fe → x.phase = .armed a wx fx → y.phase = .armed b wy fy →
    fe ≤ s.at u → fx ≤ s.at u → fy ≤ s.at u → (wx < wy ∨ (wx = wy ∧ a < b)) → c ≠ a → c ≠ b → a ≠ b →
    s.at u - we ≤ s.options.lateTol → s.at u - wx ≤ s.options.lateTol →
    (s.channel c).disabled = none → (s.channel a).disabled = none → (s.channel b).disabled = none →
    (s.channel a).pulse = none → (∀ k, (s.advance u).firstDamp k = none) →
    ∃ t, exec (.fireTimeReached u c) s = .next t
      ∧ (t.channel c).pulse = some
          (Pulse.mk (s.at u) e.width e.flight we e.weak (decide (we < s.at u)) e.roll s.rail.band (s.at u + e.width))
      ∧ t.confirm = insertConfirm (s.recordAt c p false) s.confirm
      ∧ (t.channel a).pulse = some
          (Pulse.mk (s.at u) x.width x.flight wx x.weak (decide (wx < s.at u)) x.roll s.rail.band (s.at u + x.width))
      ∧ (t.channel b).pulse = (s.channel b).pulse ∧ t.planner.claims = [{ due := wy, channel := b, kind := .strike }]

/-- Before its fire time, and with no strike armed, a channel does not fire (R80). -/
def Claims.NoFireBeforeTheFireTime : Prop :=
  ∀ (s : State) (u : Nat) (c : Chan), s.steady = true →
    (s.armedOn c = none → exec (.fireTimeReached u c) s = .next (s.advance u))
      ∧ ∀ e written effective, s.armedOn c = some e → e.phase = .armed c written effective → s.at u < effective →
          exec (.fireTimeReached u c) s = .next (s.advance u)

/-- The first waiting strike claim in list order (log 72) that is late beyond the tolerance is dropped with DROPPED_LATE: the claim and the entry are gone and the drop is counted on its channel; a claim late by no more than the tolerance waits on (R77, R82). -/
def Obligations.LateClaimIsDropped : Prop :=
  ∀ (s : State) (u : Nat) (pre post : List Claim) (a : Claim) (e : StrikeEntry), s.steady = true → s.awake = true →
    ((∀ x ∈ s.planner.claims, x.kind = .damper ∨ s.at u - x.due ≤ s.options.lateTol) →
      exec (.claimLateDrop u) s = .next (s.advance u))
      ∧ (s.planner.claims = pre ++ a :: post →
          (∀ x ∈ pre, x.kind = .damper ∨ s.at u - x.due ≤ s.options.lateTol) → a.kind = .strike →
          s.options.lateTol < s.at u - a.due → s.armedOn a.channel = some e →
          (∀ x ∈ s.planner.queue, x.deferredOn [a.channel] = false) →
          ∃ t, exec (.claimLateDrop u) s = .next t
            ∧ (t.channel a.channel).dropped = step16 (s.channel a.channel).dropped
            ∧ t.item srcDroppedLate = some (raisedItem (s.item srcDroppedLate) a.channel.val (s.at u))
            ∧ (∀ x ∈ t.planner.queue, x.sameKey e = false)
            ∧ t.planner.claims = s.planner.claims.filter (fun x => x.channel != a.channel)
            ∧ (∀ d, d ≠ a.channel → t.channel d = s.channel d)
            ∧ s.changesOnly [.now, .station, .port, .clock, .reader, .planner, .channels, .rotor, .attention] t
            ∧ (s.station.finishing = false → t.rotor = s.rotor))

/-- A pulse that reaches its end time ends at full width: the channel recovers for rec_base plus the width's share, and the confirm record takes its place, its window open from win_early before to win_late after the expected impact, behind an older record of the same channel and open time (log 74) (R90, R91, R92, R107). The statement is for a record whose window lies ahead and a slot that no claim waits for and none joins. -/
def Claims.PulseEndRecoversAndHandsOver : Prop :=
  ∀ (s : State) (u : Nat) (c : Chan) (p : Pulse), s.steady = true → s.awake = true → (s.channel c).pulse = some p →
    if p.ends ≤ s.at u then
      (s.planner.claims = [] ∧ (s.advance u).nothingJoins) ∨ s.rail.band = .cut → s.confirm.length < 32 →
      s.at u < p.start + p.flight - s.options.winEarly →
      ∃ t, exec (.pulseEnd u c) s = .next t
        ∧ t.channel c = (let rest := (s.settings c).recBase + trunc (p.width * (s.settings c).recRatio) 16
          { s.channel c with pulse := none, recoveryEnd := if rest = 0 then none else some (p.ends + rest) })
        ∧ (∀ d, d ≠ c → t.channel d = s.channel d)
        ∧ t.confirm = insertConfirm
            (ConfirmRecord.mk c (s.settings c).input (p.start + p.flight) (p.start + p.flight - s.options.winEarly)
              (p.start + p.flight + s.options.winLate) false p.weak p.late false p.roll p.band) s.confirm
        ∧ s.changesOnly [.now, .port, .channels, .inputs, .confirm, .attention] t
    else exec (.pulseEnd u c) s = .next (s.advance u)

/-- The record of a pulse that ends is placed whatever the list holds and whatever its open time: a full list resolves the first of the 33 as MISSED, the newcomer among them, and a window whose open time has come opens at once, takes the latch of its input, which teaches the trim, stands open, or is MISSED if its close time has come too (R90 to R92, R104, R107, R108, R111 to R113, R116). The statement is for a slot that no claim waits for and none joins. -/
def Claims.PulseEndPlacesItsRecord : Prop :=
  ∀ (s : State) (u : Nat) (c : Chan) (p : Pulse), s.steady = true → s.awake = true → (s.channel c).pulse = some p →
    p.ends ≤ s.at u → (s.planner.claims = [] ∧ (s.advance u).nothingJoins) ∨ s.rail.band = .cut →
    let rest := (s.settings c).recBase + trunc (p.width * (s.settings c).recRatio) 16
    let q := ((s.advance u).setChannel c { s.channel c with
      pulse := none, recoveryEnd := if rest = 0 then none else some (p.ends + rest) }).recordPlaced (s.recordAt c p false)
    ∃ t, exec (.pulseEnd u c) s = .next t ∧ t.recordsAs q
      ∧ s.changesOnly [.now, .station, .port, .clock, .reader, .channels, .inputs, .confirm, .rotor, .attention] t
      ∧ (s.station.finishing = false → t.rotor = s.rotor)

/-- A recovery ends at its time, and a channel with no pulse ends none (R90, R92). -/
def Claims.RecoveryEndsAtItsTime : Prop :=
  ∀ (s : State) (u : Nat) (c : Chan), s.steady = true →
    exec (.recoveryEnd u c) s = .next (match (s.channel c).recoveryEnd with
        | some r => if r ≤ s.at u then (s.advance u).setChannel c { s.channel c with recoveryEnd := none } else s.advance u
        | none => s.advance u)
      ∧ ((s.channel c).pulse = none → exec (.pulseEnd u c) s = .next (s.advance u))

/-- A slot that a pulse gives up goes to the first waiting claim: a damper that waits starts its pull-in (R79, R81, R123). -/
def Claims.FreedSlotGoesToTheWaitingDamper : Prop :=
  ∀ (s : State) (u : Nat) (c d : Chan) (p : Pulse) (due : Time), s.steady = true → s.awake = true → s.slotsLawful →
    (s.channel c).pulse = some p → p.ends ≤ s.at u → s.rail.band ≠ .cut → s.planner.queue = [] →
    (∀ k, (s.advance u).firstDamp k = none) → s.planner.claims = [{ due := due, channel := d, kind := .damper }] →
    (s.damper d).state ≠ .raising →
    ∃ t, exec (.pulseEnd u c) s = .next t ∧ (t.channel c).pulse = none ∧ t.planner.claims = []
      ∧ (t.damper d).state = .raising ∧ (t.damper d).pullInEnd = some (s.at u + 30000)

/-- Two strikes whose fire times come at the moment a pulse gives up the last slot both join the claimant list before the slot is granted: it goes to the one of the earlier written fire time, on a tie to the lower channel, and the other's claim waits (R80, R81; log 64). -/
def Claims.FreedSlotIsGrantedInListOrder : Prop :=
  ∀ (s : State) (u : Nat) (c a b : Chan) (p : Pulse) (x y : StrikeEntry) (wx wy fx fy : Time), s.steady = true →
    s.awake = true → s.slotsLawful → s.strikesOrdered → (s.channel c).pulse = some p → p.ends ≤ s.at u →
    s.confirm.length < 32 → s.at u < p.start + p.flight - s.options.winEarly →
    s.rail.band ≠ .cut → s.slotsInUse = s.options.driveSlots → s.planner.claims = [] →
    s.planner.queue.filter (·.isArmed) = [x, y] ∨ s.planner.queue.filter (·.isArmed) = [y, x] →
    x.phase = .armed a wx fx → y.phase = .armed b wy fy → fx ≤ s.at u → fy ≤ s.at u →
    (wx < wy ∨ (wx = wy ∧ a < b)) → a ≠ b → s.at u - wx ≤ s.options.lateTol →
    (s.channel a).disabled = none → (s.channel b).disabled = none → (s.channel a).pulse = none →
    (∀ k, (s.advance u).firstDamp k = none) → (∀ e ∈ s.planner.queue, e.deferred = false) →
    ∃ t, exec (.pulseEnd u c) s = .next t ∧ (t.channel a).pulse.isSome = true ∧ (t.channel b).pulse = (if b = c then none else (s.channel b).pulse)
      ∧ t.planner.claims = [{ due := wy, channel := b, kind := .strike }]

/-! ## Hit confirmation -/

/-- A qualified assertion at a hit input, its impact 20 µs earlier: it confirms the first open record on the input, teaching the channel's trim where the record allows; with no open record it is held while a pulse runs on a channel of the input, a DISABLED channel's among them (log 23), at an EDGE input in the place of an assertion still held (log 53); else it is a STRAY, or silent up to the quiet-until time (R103, R104, R107, R109, R111, R116). -/
def Claims.AssertionConfirmsHoldsOrStrays : Prop :=
  ∀ (s : State) (u : Nat) (i : Chan), s.steady = true → s.awake = true → s.station.state ≠ .offline → s.isHitInput i = true →
    (s.input i).asserted = false →
    let impact := s.at u - 20
    (∀ pre post r, s.confirm = pre ++ r :: post → r.input = i → r.isOpen = true →
        (∀ x ∈ pre, x.input = i → x.isOpen = false) →
        ∃ t, exec (.sensorAssertion u i) s = .next t ∧ t.confirm = pre ++ post
          ∧ t.channel r.channel = { s.channel r.channel with
              confirmed := step16 (s.channel r.channel).confirmed, misses := 0
              trim := if r.weak = false ∧ r.late = false ∧ r.cut = false ∧ r.roll = false ∧ r.band = .normal then
                  clamp (-2000) 2000 ((s.channel r.channel).trim + rhaz (impact - r.expected) 8)
                else (s.channel r.channel).trim }
          ∧ (∀ d, d ≠ r.channel → t.channel d = s.channel d)
          ∧ (t.input i).asserted = true ∧ (∃ q, (t.input i).quietUntil = some q ∧ s.at u + 30000 ≤ q)
          ∧ (∀ j, j ≠ i → t.input j = s.input j)
          ∧ t.attention.items = s.attention.items
          ∧ s.changesOnly [.now, .station, .port, .clock, .reader, .channels, .inputs, .confirm, .dampers, .rotor, .attention] t
          ∧ (s.station.finishing = false → t.rotor = s.rotor))
      ∧ ((∀ r ∈ s.confirm, r.input = i → r.isOpen = false) → s.drivenOn i = true →
          ∃ t, exec (.sensorAssertion u i) s = .next t
            ∧ t.input i = { s.input i with
                asserted := true, run := 0, latch := some { impact := impact, edgeUsed := false }
                stuckDeadline := if s.inputMode i = .edgeLevel then some (impact + 200000) else (s.input i).stuckDeadline }
            ∧ (∀ j, j ≠ i → t.input j = s.input j) ∧ s.changesOnly [.now, .inputs, .dampers] t)
      ∧ ((∀ r ∈ s.confirm, r.input = i → r.isOpen = false) → s.drivenOn i = false →
          ∃ t, exec (.sensorAssertion u i) s = .next t
            ∧ t.item srcStray = s.strayAfter u i impact
            ∧ (∀ x, x ≠ srcStray → t.item x = s.item x)
            ∧ (t.input i).asserted = true ∧ (∀ l, (t.input i).latch = some l → l.edgeUsed = true)
            ∧ (∀ j, j ≠ i → t.input j = s.input j) ∧ s.changesOnly [.now, .port, .inputs, .dampers, .attention] t)

/-- The end of the last pulse on an input that holds an unused assertion, the new record's window not open yet: the assertion is judged unmatched, a STRAY or silent up to the quiet-until time; an EDGE latch is cleared, an EDGE_LEVEL latch stays with its edge used (R104, R109). The statement is for a slot that no claim waits for and none joins. -/
def Claims.HeldAssertionIsJudgedAtTheLastPulseEnd : Prop :=
  ∀ (s : State) (u : Nat) (c : Chan) (p : Pulse) (l : Latch), s.steady = true → s.awake = true →
    (s.channel c).pulse = some p → p.ends ≤ s.at u → (s.settings c).kind = .striker →
    (s.planner.claims = [] ∧ (s.advance u).nothingJoins) ∨ s.rail.band = .cut → s.confirm.length < 32 →
    s.at u < p.start + p.flight - s.options.winEarly →
    let i := (s.settings c).input
    (s.input i).latch = some l → l.edgeUsed = false →
    (∀ d, d ≠ c → (s.settings d).kind = .striker → (s.settings d).input = i → (s.channel d).pulse = none) →
    ∃ t, exec (.pulseEnd u c) s = .next t
      ∧ t.item srcStray = s.strayAfter u i l.impact ∧ (∀ x, x ≠ srcStray → t.item x = s.item x)
      ∧ t.input i = { s.input i with
          latch := if s.inputMode i = .edge then none else some { l with edgeUsed := true } }
      ∧ ∀ j, j ≠ i → t.input j = s.input j

/-- A qualified release: an EDGE input only loses its level; an EDGE_LEVEL input lets its latch, stuck flag and stuck deadline go, and an assertion still held there is judged unmatched first: a STRAY, or silent up to the quiet-until time (R103, R104, R105, R109). -/
def Claims.ReleaseLetsTheInputGo : Prop :=
  ∀ (s : State) (u : Nat) (i : Chan), s.steady = true → s.awake = true → s.station.state ≠ .offline → s.isHitInput i = true →
    (s.input i).asserted = true →
    ∃ t, exec (.sensorRelease u i) s = .next t
      ∧ t.input i = (if s.inputMode i = .edge then { s.input i with asserted := false, run := 0 }
        else { s.input i with asserted := false, run := 0, latch := none, stuck := false, stuckDeadline := none })
      ∧ t.item srcStray = (match s.inputMode i, (s.input i).latch with
        | .edgeLevel, some l => if l.edgeUsed then s.item srcStray else s.strayAfter u i l.impact
        | _, _ => s.item srcStray)
      ∧ (∀ x, x ≠ srcStray → t.item x = s.item x)
      ∧ (∀ j, j ≠ i → t.input j = s.input j) ∧ s.changesOnly [.now, .port, .inputs, .dampers, .attention] t

/-- Dampers on the input take its new level: a raise check passes at an assertion, a lower check passes at a release and the damper is LOWERED (R124). A level that does not change, an input no channel names, and OFFLINE give nothing (R103). -/
def Claims.SensorLevelPassesDamperChecks : Prop :=
  ∀ (s : State) (u : Nat) (i c : Chan), s.steady = true → s.awake = true →
    (s.station.state ≠ .offline → (s.settings c).kind = .damper → (s.settings c).input = i →
      ((s.input i).asserted = false → ∃ t, exec (.sensorAssertion u i) s = .next t
          ∧ t.damper c = (match (s.damper c).check with
            | some k => if k.raise = true then { s.damper c with check := none } else s.damper c
            | none => s.damper c))
        ∧ ((s.input i).asserted = true → ∃ t, exec (.sensorRelease u i) s = .next t
          ∧ t.damper c = (match (s.damper c).check with
            | some k => if k.raise = true then s.damper c else { s.damper c with check := none, state := .lowered }
            | none => s.damper c)))
      ∧ (s.station.state = .offline ∨ s.isWatched i = false ∨ (s.input i).asserted = true →
          exec (.sensorAssertion u i) s = .next (s.advance u))
      ∧ (s.station.state = .offline ∨ s.isWatched i = false ∨ (s.input i).asserted = false →
          exec (.sensorRelease u i) s = .next (s.advance u))

/-- The first due window of the list opens: an unused edge of its input confirms the record, and so does the held level of an EDGE_LEVEL input that is not stuck, also where its edge was judged at this very moment (log 55); with neither the record stands open. The landing error of an edge, its impact less the expected one, teaches the trim where the record is not weak, late, cut or a roll's and its strike fired in NORMAL; a level teaches nothing. The edge is used up, and the input is quiet for 30 ms at least (R104, R107, R108, R109, R111, R116). -/
def Claims.WindowOpensOrTakesTheLatch : Prop :=
  ∀ (s : State) (u : Nat) (pre post : List ConfirmRecord) (r : ConfirmRecord), s.steady = true → s.awake = true →
    s.confirm = pre ++ r :: post → r.isOpen = false → r.opens ≤ s.at u →
    (∀ x ∈ pre, x.isOpen = true ∨ s.at u < x.opens) →
    ((∀ l, (s.input r.input).latch = some l →
        l.edgeUsed = true ∧ (s.inputMode r.input = .edge ∨ (s.input r.input).stuck = true)) →
      exec (.windowOpen u) s = .next ((s.advance u).setConfirm (pre ++ { r with isOpen := true } :: post)))
      ∧ (∀ l, (s.input r.input).latch = some l → l.edgeUsed = false ∨ (s.inputMode r.input = .edgeLevel ∧ (s.input r.input).stuck = false) →
          ∃ t, exec (.windowOpen u) s = .next t ∧ t.confirm = pre ++ post
            ∧ (t.channel r.channel).confirmed = step16 (s.channel r.channel).confirmed
            ∧ (t.channel r.channel).misses = 0
            ∧ (t.channel r.channel).trim = (if l.edgeUsed = false ∧ r.weak = false ∧ r.late = false ∧ r.cut = false
                ∧ r.roll = false ∧ r.band = .normal then
                clamp (-2000) 2000 ((s.channel r.channel).trim + rhaz (l.impact - r.expected) 8)
              else (s.channel r.channel).trim)
            ∧ (t.input r.input).latch = (if l.edgeUsed = false ∧ s.inputMode r.input = .edge then none
              else some { l with edgeUsed := true })
            ∧ (t.input r.input).quietUntil = some (laterOf (s.input r.input).quietUntil (s.at u + 30000))
            ∧ (∀ d, d ≠ r.channel → t.channel d = s.channel d)
            ∧ s.changesOnly [.now, .station, .port, .clock, .reader, .channels, .inputs, .confirm, .rotor, .attention] t
            ∧ (s.station.finishing = false → t.rotor = s.rotor))

/-- The first open window that is due closes unmatched: MISS is raised, the miss is counted, and the third in a row disables the channel with cause MISSES and raises CHANNEL_MISSES (R97, R112). -/
def Claims.WindowClosesAsAMiss : Prop :=
  ∀ (s : State) (u : Nat) (pre post : List ConfirmRecord) (r : ConfirmRecord), s.steady = true → s.awake = true →
    s.confirm = pre ++ r :: post → r.isOpen = true → r.closes ≤ s.at u →
    (∀ x ∈ pre, x.isOpen = false ∨ s.at u < x.closes) →
    let ch := s.channel r.channel
    ∃ t, exec (.windowClose u) s = .next t ∧ t.confirm = pre ++ post
      ∧ t.channel r.channel = { ch with
          missed := step16 ch.missed, misses := if ch.misses < 3 then ch.misses + 1 else ch.misses
          disabled := if ch.misses = 2 then some .misses else ch.disabled }
      ∧ (∀ d, d ≠ r.channel → t.channel d = s.channel d)
      ∧ t.item srcMiss = some (raisedItem (s.item srcMiss) r.channel.val (s.at u))
      ∧ t.item srcChannelMisses = (if ch.misses = 2 then
          some (raisedItem (s.item srcChannelMisses) r.channel.val (s.at u)) else s.item srcChannelMisses)
      ∧ s.changesOnly [.now, .station, .port, .clock, .reader, .channels, .confirm, .rotor, .attention] t
      ∧ (s.station.finishing = false → t.rotor = s.rotor)

/-- No window opens or closes before its time (R107, R112). -/
def Claims.WindowsKeepTheirTimes : Prop :=
  ∀ (s : State) (u : Nat), s.steady = true →
    ((∀ x ∈ s.confirm, x.isOpen = true ∨ s.at u < x.opens) → exec (.windowOpen u) s = .next (s.advance u))
      ∧ ((∀ x ∈ s.confirm, x.isOpen = false ∨ s.at u < x.closes) → exec (.windowClose u) s = .next (s.advance u))

/-- The stuck deadline of an input sets its stuck flag and disables with cause STUCK every STRIKER channel that names it, and raises CHANNEL_STUCK once for each with its number as detail; at the re-check after an enable, those that are not DISABLED (R97, R105, R106, R160). The channels are taken by ascending number (model's choice, log 52). -/
def Claims.StuckDeadlineDisablesTheChannels : Prop :=
  ∀ (s : State) (u : Nat) (i : Chan) (d : Time), s.steady = true → s.awake = true → (s.input i).stuckDeadline = some d →
    if d ≤ s.at u then
      ∃ t, exec (.stuckDeadline u i) s = .next t
        ∧ t.input i = { s.input i with stuck := true, stuckDeadline := none } ∧ (∀ j, j ≠ i → t.input j = s.input j)
        ∧ (∀ c, t.channel c =
            if (s.settings c).kind = .striker ∧ (s.settings c).input = i
                ∧ ((s.input i).stuck = false ∨ (s.channel c).disabled = none) then
              { s.channel c with disabled := some .stuck }
            else s.channel c)
        ∧ t.item srcChannelStuck =
            (allChannels.filter fun c => decide ((s.settings c).kind = .striker ∧ (s.settings c).input = i
              ∧ ((s.input i).stuck = false ∨ (s.channel c).disabled = none))).foldl
              (fun it c => some (raisedItem it c.val (s.at u))) (s.item srcChannelStuck)
        ∧ (∀ x, x ≠ srcChannelStuck → t.item x = s.item x)
        ∧ s.changesOnly [.now, .port, .channels, .inputs, .attention] t
    else exec (.stuckDeadline u i) s = .next (s.advance u)

/-- An input with no stuck deadline does not stick (R105). -/
def Claims.NoStuckDeadlineNoEffect : Prop :=
  ∀ (s : State) (u : Nat) (i : Chan), s.steady = true → (s.input i).stuckDeadline = none →
    exec (.stuckDeadline u i) s = .next (s.advance u)

/-! ## Dampers and the rotor -/

/-- The first due DAMP event of a damper channel applies. Lowering a raised or raising damper makes it LOWERING with a lower check, or LOWERED at once on a deasserted sensor; raising a lowered one with a slot free and no claim waiting starts its pull-in and its raise check; in CUT the claim waits (R121 to R124). A target that stands already changes nothing more. -/
def Claims.DampEventMovesTheDamper : Prop :=
  ∀ (s : State) (u : Nat) (c : Chan) (k : Nat) (m : Time) (raise : Bool), s.steady = true → s.awake = true →
    (s.settings c).kind = .damper → (s.advance u).firstDamp c = some (k, m, raise) → s.planner.claims = [] →
    (raise = false → (s.damper c).targetRaised = true →
      (s.damper c).state = .raised ∨ ((s.damper c).state = .raising ∧ ((s.advance u).consumeDamp k c).nothingJoins) →
      exec (.dampApply u c) s = .next (((s.advance u).consumeDamp k c).setDamper c
        { targetRaised := false, pullInEnd := none
          state := if s.sensorOf c = true then .lowering else .lowered
          check := if s.sensorOf c = true then some { raise := false, deadline := s.at u + 100000 } else none }))
      ∧ (raise = true → (s.damper c).targetRaised = false →
          (s.damper c).state = .lowered ∨ (s.damper c).state = .lowering →
          (s.rail.band ≠ .cut → s.slotsInUse < s.options.driveSlots →
            exec (.dampApply u c) s = .next (((s.advance u).consumeDamp k c).setDamper c
              { targetRaised := true, state := .raising, pullInEnd := some (s.at u + 30000)
                check := if s.sensorOf c = true then none else some { raise := true, deadline := s.at u + 100000 } }))
            ∧ (s.rail.band = .cut →
              exec (.dampApply u c) s = .next ((((s.advance u).consumeDamp k c).setDamper c
                { s.damper c with targetRaised := true }).setPlanner
                { s.planner with claims := [{ due := s.at u, channel := c, kind := .damper }] })))
      ∧ ((s.damper c).targetRaised = raise →
          exec (.dampApply u c) s = .next ((s.advance u).consumeDamp k c))

/-- A raise of a lowered or lowering damper with no slot free, or in CUT, makes a claim due now, which waits in the claimant list in its place (R121 to R123, R81). -/
def Claims.RaiseWithoutASlotWaits : Prop :=
  ∀ (s : State) (u : Nat) (c : Chan) (k : Nat) (m : Time), s.steady = true → s.awake = true →
    (s.settings c).kind = .damper → (s.advance u).firstDamp c = some (k, m, true) →
    (s.damper c).targetRaised = false → (s.damper c).state = .lowered ∨ (s.damper c).state = .lowering →
    s.claimWaits c = false → s.rail.band = .cut ∨ s.options.driveSlots ≤ s.slotsInUse →
    exec (.dampApply u c) s = .next ((((s.advance u).consumeDamp k c).setDamper c
      { s.damper c with targetRaised := true }).setPlanner
      { s.planner with claims := insertClaim { due := s.at u, channel := c, kind := .damper } s.planner.claims })

/-- A damper lowered again while its claim waits withdraws the claim and stays as it is (R122). -/
def Claims.LoweredDamperWithdrawsItsClaim : Prop :=
  ∀ (s : State) (u : Nat) (c : Chan) (k : Nat) (m : Time), s.steady = true →
    (s.settings c).kind = .damper → (s.advance u).firstDamp c = some (k, m, false) → (s.damper c).targetRaised = true →
    (s.damper c).state = .lowered ∨ (s.damper c).state = .lowering → s.rail.band = .cut ∨ s.options.driveSlots ≤ s.slotsInUse →
    exec (.dampApply u c) s = .next ((((s.advance u).consumeDamp k c).setDamper c
      { s.damper c with targetRaised := false }).setPlanner
      { s.planner with claims := s.planner.claims.filter fun x => x.channel != c })

/-- DAMP_APPLY does nothing on a channel that is no damper, or that has no due DAMP event while no claim waits (R121). -/
def Claims.NoDampEventNoMovement : Prop :=
  ∀ (s : State) (u : Nat) (c : Chan), s.steady = true →
    (s.settings c).kind ≠ .damper ∨ ((s.advance u).firstDamp c = none ∧ s.planner.claims = []) →
    exec (.dampApply u c) s = .next (s.advance u)

/-- A pull-in ends after its 30 ms, and not before: the damper is RAISED and its slot is free; a check that its sensor did not pass by its deadline raises DAMPER_FAULT, a lower check leaving the damper LOWERED (R123, R124). -/
def Claims.PullInAndCheckEndAtTheirTimes : Prop :=
  ∀ (s : State) (u : Nat) (c : Chan), s.steady = true →
    ((s.damper c).state = .raising → ∀ d, (s.damper c).pullInEnd = some d → d ≤ s.at u →
      (s.planner.claims = [] ∧ (s.advance u).nothingJoins) ∨ s.rail.band = .cut →
      exec (.pullInEnd u c) s = .next ((s.advance u).setDamper c { s.damper c with state := .raised, pullInEnd := none }))
      ∧ ((s.damper c).state ≠ .raising ∨ (s.damper c).pullInEnd = none ∨ (∃ d, (s.damper c).pullInEnd = some d ∧ s.at u < d) →
          exec (.pullInEnd u c) s = .next (s.advance u))
      ∧ (∀ k, (s.damper c).check = some k →
          exec (.damperCheckDeadline u c) s = .next
            (if k.deadline ≤ s.at u then
              (((s.advance u).setDamper c { s.damper c with
                check := none, state := if k.raise = true then (s.damper c).state else .lowered }).raise srcDamperFault
                c.val).reportThenLeave
            else s.advance u))
      ∧ ((s.damper c).check = none → exec (.damperCheckDeadline u c) s = .next (s.advance u))

/-- The slot that a pull-in gives up goes to the first waiting claim: a damper starts its pull-in, and a strike within the tolerance starts its pulse; with all slots in use the claims behind it wait on (R79, R81, R82, R84, R89, R123). -/
def Claims.PullInEndGivesItsSlotOn : Prop :=
  ∀ (s : State) (u : Nat) (c d : Chan) (ends : Time), s.steady = true → s.awake = true → s.slotsLawful → s.rail.band ≠ .cut →
    (s.damper c).state = .raising → (s.damper c).pullInEnd = some ends → ends ≤ s.at u →
    (∀ k, (s.advance u).firstDamp k = none) →
    let raised := { s.damper c with state := DamperState.raised, pullInEnd := none }
    let dueStrikesWait := ∀ x ∈ s.planner.queue, ∀ c w f, x.phase = .armed c w f → s.at u < f ∨ s.claimWaits c = true
    let timely := fun rest : List Claim => ∀ x ∈ rest, x.kind = .damper ∨ s.at u - x.due ≤ s.options.lateTol
    (∀ due rest, s.planner.claims = { due := due, channel := d, kind := .damper } :: rest → (s.damper d).state ≠ .raising →
        (rest = [] ∧ (s.advance u).nothingJoins) ∨ (s.slotsInUse = s.options.driveSlots ∧ dueStrikesWait ∧ timely rest) →
        exec (.pullInEnd u c) s = .next
          ((((s.advance u).setDamper c raised).setPlanner { s.planner with claims := rest }).setDamper d
            { s.damper d with
              state := .raising, pullInEnd := some (s.at u + 30000)
              check := if s.sensorOf d = true then none else some { raise := true, deadline := s.at u + 100000 } }))
      ∧ ∀ e w f rest, s.planner.claims = { due := w, channel := d, kind := .strike } :: rest → s.armedOn d = some e →
          e.phase = .armed d w f → s.at u - w ≤ s.options.lateTol → (s.channel d).disabled = none →
          (s.channel d).pulse = none → (∀ x ∈ s.planner.queue, x.deferredOn [d] = false) →
          (rest = [] ∧ ∀ x ∈ s.planner.queue, x ≠ e → ∀ c' w' f', x.phase = .armed c' w' f' → s.at u < f')
            ∨ (s.slotsInUse = s.options.driveSlots ∧ dueStrikesWait ∧ timely rest) →
          ∃ t, exec (.pullInEnd u c) s = .next t ∧ t.damper c = raised ∧ t.planner.claims = rest
            ∧ (t.channel d).pulse = some
                (Pulse.mk (s.at u) e.width e.flight w e.weak (decide (w < s.at u)) e.roll s.rail.band (s.at u + e.width))
            ∧ (t.channel d).fired = step16 (s.channel d).fired ∧ (∀ k, k ≠ d → t.channel k = s.channel k)
            ∧ ∀ x ∈ t.planner.queue, x.sameKey e = false

/-- A rising edge of TACH_IN counts in the window while the clock runs, up to 255 (R128). -/
def Claims.TachEdgeCountsWhileTheClockRuns : Prop :=
  ∀ (s : State) (u : Nat), s.steady = true →
    exec (.tachEdge u) s = .next
      (if s.clockRuns = true then
        (s.advance u).setRotor { s.rotor with window := if s.rotor.window < 255 then s.rotor.window + 1 else s.rotor.window }
      else s.advance u)

/-- The rotor's duty at a boundary on the count of the beat just ended: 0 for a target of 0, held in CUT, otherwise corrected by a quarter of the gain times the difference from four times the target, in 0 … 255; two beats of no count at a duty of 32 or more stall it (R129, R130). -/
def Claims.RotorDutyFollowsTheCount : Prop :=
  ∀ (r : Rotor) (count : Nat) (band : Band) (gain : Int),
    (r.target = 0 → r.update count band gain = { r with duty := 0, zeroBeats := 0 })
      ∧ (r.target ≠ 0 → band = .cut → r.update count band gain = r)
      ∧ (r.target ≠ 0 → band ≠ .cut → count = 0 → 32 ≤ r.duty → 1 ≤ r.zeroBeats →
          r.stalls count band = true ∧ r.update count band gain = { r with target := 0, duty := 0, zeroBeats := 0 })
      ∧ (r.target ≠ 0 → band ≠ .cut → ¬(count = 0 ∧ 32 ≤ r.duty) →
          r.stalls count band = false
            ∧ r.update count band gain = { r with
                zeroBeats := 0
                duty := (clamp 0 255 (r.duty + trunc ((4 * r.target - count) * gain) 4)).toNat })
      ∧ (r.target ≠ 0 → band ≠ .cut → count = 0 → 32 ≤ r.duty → r.zeroBeats = 0 →
          r.stalls count band = false
            ∧ r.update count band gain = { r with
                zeroBeats := 1
                duty := (clamp 0 255 (r.duty + trunc ((4 * r.target - count) * gain) 4)).toNat })

/-! ## The drive rail -/

/-- Every sample is judged against the band in force by the table of R136, the runs before the band; a run that reaches depth changes the band, and every change sets the runs to 0 (R135, R136). -/
def Obligations.SamplesMoveTheBandByTheTable : Prop :=
  ∀ (r : Rail) (o : Options) (x : Nat), r.judging = true →
    let t := r.sample o x
    let down := if x < o.warn then r.downRun + 1 else 0
    let cutRun := if x < o.cut then r.cutRun + 1 else 0
    let moved := fun (b : Band) => t.band = b ∧ t.downRun = 0 ∧ t.cutRun = 0 ∧ t.upRun = 0
    let stays := fun (d k up : Nat) => t.band = r.band ∧ t.downRun = d ∧ t.cutRun = k ∧ t.upRun = up
    (r.band = .normal →
      if o.depth ≤ cutRun then moved .cut else if o.depth ≤ down then moved .low else stays down cutRun 0)
      ∧ (r.band = .low →
          let up := if o.warn + o.hyst ≤ x then r.upRun + 1 else 0
          if o.depth ≤ cutRun then moved .cut else if o.depth ≤ up then moved .normal else stays 0 cutRun up)
      ∧ (r.band = .cut →
          let up := if o.cut + o.hyst ≤ x then r.upRun + 1 else 0
          if o.depth ≤ up then moved .low else stays 0 0 up)

/-- The reading of a rail voltage is in units of 0.25 V, truncated: 255 at 63.75 V and above, 0 at 0 V and below (R132; the voltage in whole millivolts is the model's operand, log 60). -/
def Claims.VoltageIsReadInQuarterVolts : Prop :=
  ∀ mv : Int,
    (63750 ≤ mv → railReading mv = 255) ∧ (mv ≤ 0 → railReading mv = 0)
      ∧ (0 ≤ mv → mv < 63750 → 250 * (railReading mv : Int) ≤ mv ∧ mv < 250 * ((railReading mv : Int) + 1))

/-- A sample enters the history, eight times over after a reset, and the accepted reading is the truncated mean of the last eight. A change to LOW from NORMAL raises RAIL_LOW, a change to CUT raises RAIL_CUT and ends every pulse and pull-in, each damper LOWERED and its raised target a waiting claim; a pulse that it ends leaves a recovery counted from the width driven and a confirm record flagged as cut; a band that stays or rises raises nothing (R91 to R93, R107, R125, R132, R133, R137, R138). Several records are handed over by ascending channel number (model's choice, log 66), where the list is full or a window has opened as well (R107, R113). -/
def Claims.RailSampleTakesItsEffect : Prop :=
  ∀ (s : State) (u : Nat) (mv : Int), s.steady = true → s.awake = true →
    let x := railReading mv
    let r := s.rail.sample s.options x
    let t := (s.advance u).setRail r
    (r.history = (if s.rail.sampled = true then s.rail.history.drop 1 ++ [x] else List.replicate 8 x)
        ∧ r.accepted = r.history.sum / 8 ∧ r.sampled = true
        ∧ (s.rail.judging = false → r.band = s.rail.band))
      ∧ (r.band = s.rail.band ∨ (s.rail.band = .low ∧ r.band = .normal)
          ∨ (s.rail.band = .cut ∧ r.band = .low ∧ s.planner.claims = [] ∧ (s.advance u).nothingJoins) →
        exec (.railSample u mv) s = .next t)
      ∧ (s.rail.band = .normal → r.band = .low → exec (.railSample u mv) s = .next (t.raise srcRailLow x).reportThenLeave)
      ∧ (s.rail.band ≠ .cut → r.band = .cut →
          ∃ t', exec (.railSample u mv) s = .next t' ∧ t'.rail = r
            ∧ t'.item srcRailCut = some (raisedItem (s.item srcRailCut) x (s.at u))
            ∧ (∀ c, (t'.channel c).pulse = none)
            ∧ (∀ c p, (s.channel c).pulse = some p →
                let rest := (s.settings c).recBase + trunc ((s.at u - p.start) * (s.settings c).recRatio) 16
                (t'.channel c).recoveryEnd = if rest = 0 then none else some (s.at u + rest))
            ∧ (∀ c, (s.channel c).pulse = none → (t'.channel c).recoveryEnd = (s.channel c).recoveryEnd)
            ∧ (s.confirm.length + s.cutRecords.length ≤ 32 → (∀ r ∈ s.cutRecords, s.at u < r.opens) →
                t'.confirm = s.cutRecords.foldl (fun xs r => insertConfirm r xs) s.confirm)
            ∧ t'.recordsAs (s.advance u).pulsesCut
            ∧ (∀ c, (s.settings c).kind = .damper → (t'.damper c).state = .lowered ∧ (t'.damper c).pullInEnd = none
              ∧ (t'.damper c).check = none ∧ (t'.damper c).targetRaised = (s.damper c).targetRaised)
            ∧ (∀ c, (s.settings c).kind = .damper → (s.damper c).targetRaised = true → t'.claimWaits c = true)
            ∧ t'.planner.queue = s.planner.queue
            ∧ s.changesOnly [.now, .port, .planner, .channels, .inputs, .confirm, .dampers, .rail, .attention] t')

/-- A change from CUT to LOW lets the claims go: a damper that waits first starts its pull-in; a strike that waits first, or whose fire time has just come, starts its pulse within the tolerance, in band LOW, and is dropped with DROPPED_LATE beyond it; a raise that is due claims and is granted. With one slot the claims behind the first wait on. That what falls due at this moment joins first is the model's reading of R80 (log 64) (R80 to R84, R123, R139). -/
def Claims.LeavingCutGrantsTheClaims : Prop :=
  ∀ (s : State) (u : Nat) (mv : Int), s.steady = true → s.awake = true → s.slotsLawful → s.rail.band = .cut →
    let r := s.rail.sample s.options (railReading mv)
    let raising := fun d : Chan =>
      { s.damper d with
        state := DamperState.raising, pullInEnd := some (s.at u + 30000)
        check := if s.sensorOf d = true then none else some { raise := true, deadline := s.at u + 100000 } }
    let dueStrikesWait := ∀ x ∈ s.planner.queue, ∀ c w f, x.phase = .armed c w f → s.at u < f ∨ s.claimWaits c = true
    let timely := fun rest : List Claim => ∀ x ∈ rest, x.kind = .damper ∨ s.at u - x.due ≤ s.options.lateTol
    r.band = .low → 0 < s.options.driveSlots →
    (∀ due d rest, s.planner.claims = { due := due, channel := d, kind := .damper } :: rest →
        (∀ k, (s.advance u).firstDamp k = none) →
        (rest = [] ∧ (s.advance u).nothingJoins) ∨ (s.options.driveSlots = 1 ∧ dueStrikesWait ∧ timely rest) →
        exec (.railSample u mv) s = .next
          ((((s.advance u).setRail r).setPlanner { s.planner with claims := rest }).setDamper d (raising d)))
      ∧ (∀ c e w f rest, s.armedOn c = some e → e.phase = .armed c w f → (∀ k, (s.advance u).firstDamp k = none) →
          (∀ x ∈ s.planner.queue, x.deferredOn [c] = false) →
          s.planner.claims = { due := w, channel := c, kind := .strike } :: rest
            ∨ (s.planner.claims = [] ∧ rest = [] ∧ f ≤ s.at u) →
          (rest = [] ∧ ∀ x ∈ s.planner.queue, x ≠ e → ∀ c' w' f', x.phase = .armed c' w' f' → s.at u < f')
            ∨ (s.options.driveSlots = 1 ∧ dueStrikesWait ∧ timely rest) →
          (s.at u - w ≤ s.options.lateTol → (s.channel c).disabled = none →
            ∃ t, exec (.railSample u mv) s = .next t ∧ t.rail = r ∧ t.planner.claims = rest
              ∧ (t.channel c).pulse = some
                  (Pulse.mk (s.at u) e.width e.flight w e.weak (decide (w < s.at u)) e.roll .low (s.at u + e.width))
              ∧ (t.channel c).fired = step16 (s.channel c).fired ∧ (∀ d, d ≠ c → t.channel d = s.channel d)
              ∧ ∀ x ∈ t.planner.queue, x.sameKey e = false)
            ∧ (s.options.lateTol < s.at u - w → s.planner.claims = [{ due := w, channel := c, kind := .strike }] →
                (∀ x ∈ s.planner.queue, x ≠ e → ∀ c' w' f', x.phase = .armed c' w' f' → s.at u < f') →
                ∃ t, exec (.railSample u mv) s = .next t ∧ t.rail = r ∧ t.planner.claims = []
                  ∧ (t.channel c).pulse = none ∧ (t.channel c).dropped = step16 (s.channel c).dropped
                  ∧ t.item srcDroppedLate = some (raisedItem (s.item srcDroppedLate) c.val (s.at u))
                  ∧ ∀ x ∈ t.planner.queue, x.sameKey e = false))
      ∧ (∀ d k m, s.planner.claims = [] → (s.settings d).kind = .damper → (s.advance u).firstDamp d = some (k, m, true) →
          (∀ x ∈ s.planner.queue, ∀ c w f, x.phase = .armed c w f → s.at u < f) →
          (∀ j, j ≠ d → (s.advance u).firstDamp j = none) → (∀ j, ((s.advance u).consumeDamp k d).firstDamp j = none) →
          (s.damper d).targetRaised = false → (s.damper d).state = .lowered →
          exec (.railSample u mv) s = .next
            ((((s.advance u).consumeDamp k d).setRail r).setDamper d { raising d with targetRaised := true }))

/-! ## The pins -/

/-- No output is driven while the part is held in reset, in OFFLINE and in SERVICE; elsewhere an output is on while the STRIKER channel that names it drives a pulse or the DAMPER channel that names it is RAISING or RAISED. The rotor's output is its duty, 0 in CUT; FAULT_OUT is asserted in HALTED and in CUT. LINE_TX is recessive but for the bits of an attempt: each character a dominant start bit, its data bits from the most significant on, dominant for 0 and recessive for 1, and a recessive stop bit, one character after the other (R13, R86, R120, R127, R144, R166). -/
def Obligations.OutputsFollowTheState : Prop :=
  ∀ s : State,
    (s.held = true ∨ s.station.state = .offline ∨ s.station.state = .service → ∀ k, s.drv k = false)
      ∧ (s.held = false → s.station.state ≠ .offline → s.station.state ≠ .service → ∀ k,
          (s.drv k = true ↔ ∃ c, (s.settings c).output = k
            ∧ (((s.settings c).kind = .striker ∧ (s.channel c).pulse.isSome = true)
              ∨ ((s.settings c).kind = .damper ∧ ((s.damper c).state = .raising ∨ (s.damper c).state = .raised)))))
      ∧ s.rotorOut = (if s.held = true ∨ s.station.state = .offline ∨ s.station.state = .service ∨ s.rail.band = .cut then 0
          else s.rotor.duty)
      ∧ (s.faultOut = true ↔ s.held = false ∧ (s.station.state = .halted ∨ s.rail.band = .cut))
      ∧ (s.held = true ∨ s.station.state = .offline ∨ s.port.attempt = none → s.lineTx = none ∧ s.lineLevel = .recessive)
      ∧ ∀ a, s.held = false → s.station.state ≠ .offline → s.port.attempt = some a →
          let chars := a.payload.characters s.station.own
          let k := ((s.now - a.started) / s.options.bitTime).toNat
          s.lineTx = some chars
            ∧ (10 * chars.length ≤ k → s.lineLevel = .recessive)
            ∧ ∀ x, chars[k / 10]? = some x →
                (k % 10 = 0 → s.lineLevel = .dominant) ∧ (k % 10 = 9 → s.lineLevel = .recessive)
                  ∧ (1 ≤ k % 10 → k % 10 ≤ 8 →
                      s.lineLevel = (if x.getLsbD (8 - k % 10) = true then .recessive else .dominant))

/-! ## The statements put together

Each of these is the conjunction of the claims above that concern one group of commands. -/

/-- Every pending item's count stays in 1 … 255, and the roster never holds this station (R15, R160). -/
def Obligations.ItemsAndRosterStayLawful : Prop :=
  Claims.ItemCountsStayInRange ∧ Claims.RosterNeverHoldsOwnStation

/-- Right after reset every block stands at its reset values, and every law above holds. -/
def Obligations.StateRightAfterResetIsLawful : Prop :=
  Claims.ResetStateHasTheResetValues ∧ Claims.LawsHoldAtReset

/-- The five commands of reset and supply (R1, R96, R141 to R143). -/
def Obligations.ResetCommandsHoldAndReleaseThePart : Prop :=
  Claims.ResetPinAndSupplyHoldThePart
    ∧ Claims.ResetEndsWithTheLastCondition
    ∧ Claims.RetentionLossClearsTheRecordOfPower

/-- A part held in reset ignores every command but the pins', and in OFFLINE no frame does anything (R1, R2; log 13, 40, 42). -/
def Obligations.HeldAndOfflinePartsIgnoreCommands : Prop :=
  Claims.HeldPartDoesNothing ∧ Claims.OfflinePartIgnoresFrames

/-- The join, keepalive and presence deadlines (R3, R12, R16). -/
def Obligations.StationDeadlinesTakeEffect : Prop :=
  Claims.JoinDeadlineEntersReady
    ∧ Claims.KeepaliveDeadlineQueuesAnnounce
    ∧ Claims.PresenceDeadlineRemovesThePeer

/-- The company deadline and a STOP end the piece with the clean-up of R7 (R7, R9). -/
def Obligations.CompanyDeadlineAndStopEndThePiece : Prop :=
  Claims.CompanyDeadlineEndsThePiece ∧ Claims.StopEndsThePiece

/-- END in PLAYING and in REJOINING (R11, R45, R126). -/
def Obligations.EndReachedFinishesThePiece : Prop :=
  Claims.EndInPlayingFinishesThePiece ∧ Claims.EndInRejoiningEndsThePiece ∧ Claims.NoEndBeforeItsPosition

/-- The buttons (R8). -/
def Obligations.ButtonsAreQualified : Prop :=
  Claims.ButtonEdgesMoveTheQualifier
    ∧ Claims.ButtonPressesQueueStartAndStop
    ∧ Claims.ButtonReleaseQualifies

/-- REPORT, SVC_REPLY, ANNOUNCE and MUTE frames of peers (R15, R17, R18, R55, R57, R156). -/
def Obligations.RosterAndMuteFramesTakeEffect : Prop :=
  Claims.ReportAndReplyFramesRefreshTheRoster
    ∧ Claims.AnnounceUpdatesTheRosterEntry
    ∧ Claims.MuteSetsAndClearsTheWindow

/-- STARTs that do not begin a piece, and RELEASEs that do not release the hold held (R4, R5, R39). -/
def Obligations.OtherStartsAndReleasesAreIgnored : Prop :=
  Claims.OtherStartsAreIgnored ∧ Claims.OtherReleasesAreLateOrRemembered

/-- A RELEASE of the hold held, and the limit of a hold (R38, R40, R70 to R73, R121). -/
def Obligations.HoldsAreReleased : Prop :=
  Claims.ReleaseLeavesTheHold ∧ Claims.HoldLimitReleasesTheHold ∧ Claims.ReleaseProjectsAnew

/-- MARKs outside COUNTIN, PLAYING and HOLDING, and the rejoin reference (R3, R6, R9, R19, R28, R41, R42). -/
def Obligations.MarksOfAPieceUnderWayAreTaken : Prop :=
  Claims.MarkTakesTheStationToRejoining
    ∧ Claims.MarkServesTheRejoiningStation
    ∧ Claims.MarkIsJudgedInRejoining
    ∧ Claims.OtherMarksAreRecorded
    ∧ Claims.ReferenceIsEstablishedAfterNMarks
    ∧ Claims.ReferenceIsTheWeightedMean

/-- Requests for other stations, requests to an occupied handler, and unknown operation codes (R171). -/
def Obligations.RequestsNotCarriedOut : Prop :=
  Claims.RequestsForOthersAreNotTaken
    ∧ Claims.BusyHandlerAnswersBusy
    ∧ Claims.UnknownOperationAnswersRange

/-- READ_STORE, READ_ROSTER, READ_COUNTERS and READ_CHANNEL, with the channel states it reports (R87, R102, R172, R175). -/
def Obligations.ReadingRequestsAnswerTheState : Prop :=
  Claims.ReadStoreAnswersTheBytes
    ∧ Claims.ReadRosterAnswersThePages
    ∧ Claims.ReadCountersAnswersThePages
    ∧ Claims.ReadChannelAnswersThePages
    ∧ Claims.ChannelStatesAreThoseOfTheTable

/-- PROGRAM_COMPLETE and ERASE_COMPLETE (R167, R172, R173). -/
def Obligations.StoreOperationsComplete : Prop :=
  Claims.ProgramCompleteAndsTheBytes
    ∧ Claims.EraseCompleteSetsTheSector
    ∧ Claims.CompletionsNeedTheirOperation

/-- ENTER_SERVICE, CLEAR_HALT, LEAVE_SERVICE and PART_RESET (R10, R13, R14, R174). -/
def Obligations.StationChangingRequestsTakeEffect : Prop :=
  Claims.EnterServiceFromReadyAndHalted
    ∧ Claims.ClearHaltEntersListening
    ∧ Claims.LeaveServiceWaitsForItsReply
    ∧ Claims.PartResetResetsAtOnce

/-- ENABLE_CHANNEL, with the entry deferred on the channel, and CHECK (R73, R75, R98, R106, R165, R174). -/
def Obligations.EnableAndCheckTakeEffect : Prop :=
  Claims.EnableChannelClearsTheFlag
    ∧ Claims.EnableReleasesTheDeferredEntry
    ∧ Claims.EnableArmsInQueueOrder
    ∧ Claims.CheckRaisesItsSource

/-- The spontaneous REPORT and the answer to a QUERY (R159, R162, R163, R164). -/
def Obligations.ReportsAndAnswersAreOffered : Prop :=
  Claims.ReportIsOfferedWhenAllowed
    ∧ Claims.HighestPendingStandsFirst
    ∧ Claims.HoldOffFollowsTheLostReport
    ∧ Claims.QueryIsAnswered
    ∧ Claims.QueryAndClearingCommute
    ∧ Claims.AttentionOrderIsByLevelThenRank

/-- Frames received with an error or not taken up, other stations' start bits, and the end of muting (R147, R150, R151, R155). -/
def Obligations.LineEventsMoveThePort : Prop :=
  Claims.ReceiveErrorsAreCounted
    ∧ Claims.LeadingEdgeClearsTheYield
    ∧ Claims.MuteEndResumesThePort
    ∧ Claims.UnheardFramesReachNoBlock
    ∧ Claims.FrameTimesAreThoseOfTheTable

/-- An attempt's beginning, what it carries, and an arbitration loss (R147 to R149, R152). -/
def Obligations.AttemptsBeginAndLoseArbitration : Prop :=
  Claims.AttemptBeginsAfterTheGap
    ∧ Claims.AttemptCarriesTheOwnersValues
    ∧ Claims.ArbitrationLossKeepsTheFrame
    ∧ Claims.AttemptOutcomesNeedAnAttempt

/-- The beat boundary (R20, R23 to R26, R30, R32, R34, R43, R44, R70, R71, R73, R121, R127, R129). -/
def Obligations.BeatBoundaryFollowsItsSteps : Prop :=
  Claims.BeatBoundaryAdvancesTheClock
    ∧ Claims.BoundaryProjectsStrikesAndDampers
    ∧ Claims.BoundaryCountsSelfOutliers
    ∧ Claims.BoundaryQueuesTheMark
    ∧ Claims.BoundaryConsumesTheFreshMarks
    ∧ Claims.NoBoundaryBeforeItsTime
    ∧ Claims.SelfResyncRejoins
    ∧ Claims.SelfResyncEndsAFinishingPiece
    ∧ Claims.CountInEndsAtTheStartPosition
    ∧ Claims.RejoinEndsAtTheEntryBar
    ∧ Claims.BoundaryTurnsTheRotor
    ∧ Claims.FollowWeightsAreThoseOfTheTable

/-- A HOLD event that is reached, and the deadlines of a hold (R26, R36, R37, R72). -/
def Obligations.HoldsAreReachedAndKept : Prop :=
  Claims.HoldReachedHoldsOrPasses
    ∧ Claims.HoldDeadlinesQueueReleaseAndMark
    ∧ Claims.HoldDeadlinesNeedAHold

/-- The reader's items: records and strokes of rolls, the strike queue they meet, the timeline list, the rests, and the meter (R48 to R54, R56, R62 to R64). -/
def Obligations.ReaderTakesItsItems : Prop :=
  Claims.ReaderTakesTheNextRecord
    ∧ Claims.ReaderWaitsForHorizonAndRoom
    ∧ Claims.ReaderTakesTheEvents
    ∧ Claims.PlacedDampFollowsTheEarlierOne
    ∧ Claims.ReaderTakesTheStrokes
    ∧ Claims.ReaderMergesStrikes
    ∧ Claims.ReaderPassesRestsAndDegradesRolls
    ∧ Claims.MetersFollowBarRecords

/-- The scan (R34, R43, R58 to R61). -/
def Obligations.ScanFindsItsBar : Prop :=
  Claims.LinesAreReachedAndMeetTheTarget
    ∧ Claims.LinesAreTestedInTurn
    ∧ Claims.ScanStaysLawful
    ∧ Claims.ScanNotesTheRecord
    ∧ Claims.ScanEndEndsThePiece
    ∧ Claims.LineTestHandsOverTheStartBar
    ∧ Claims.LineTestHandsOverTheEntryBar
    ∧ Claims.ScanHandsOverTheStartBar
    ∧ Claims.StartBarFoundTooLateRejoins
    ∧ Claims.ScanHandsOverTheEntryBar
    ∧ Claims.ScanGathersTheNotedStates
    ∧ Claims.EntryScanTakesItsHolds
    ∧ Claims.ScanWaitsItsTime

/-- Arming, with the width and the flight it fixes (R64, R66, R67, R68, R70, R73 to R77). -/
def Obligations.StrikesAreArmed : Prop :=
  Claims.WidthIsCompensatedForTheRail
    ∧ Claims.ArmMomentIsTwoMillisecondsAhead
    ∧ Claims.ArmMomentArmsTheFirstDueEntry
    ∧ Claims.ArmMomentChoosesByTheFreeTimes
    ∧ Claims.ArmMomentTakesTheSoonestChannel
    ∧ Claims.LateStrikeArmsInQueueOrder
    ∧ Claims.ArmMomentNeedsADueEntry

/-- The fire time of an armed strike (R73, R75, R78 to R81, R83, R84, R89). -/
def Obligations.StrikesFire : Prop :=
  Claims.FireTimeStartsThePulse
    ∧ Claims.DeferredStrikeArmsWhenItsChannelFires
    ∧ Claims.StrikeOfADisabledChannelIsChosenAnew
    ∧ Claims.FireTimeClaimsASlot
    ∧ Claims.FireTimeEndsTheLastPulse
    ∧ Claims.NoFireBeforeTheFireTime

/-- Pulse end, recovery end, the record handed over, and the slot that falls free (R79 to R81, R90 to R92, R107, R113). -/
def Obligations.PulsesAndRecoveriesEnd : Prop :=
  Claims.PulseEndRecoversAndHandsOver
    ∧ Claims.PulseEndPlacesItsRecord
    ∧ Claims.RecoveryEndsAtItsTime
    ∧ Claims.FreedSlotGoesToTheWaitingDamper
    ∧ Claims.FreedSlotIsGrantedInListOrder

/-- Qualified assertions and releases (R103, R104, R107, R109, R111, R116, R124). -/
def Obligations.SensorLevelsAreJudged : Prop :=
  Claims.AssertionConfirmsHoldsOrStrays
    ∧ Claims.HeldAssertionIsJudgedAtTheLastPulseEnd
    ∧ Claims.ReleaseLetsTheInputGo
    ∧ Claims.SensorLevelPassesDamperChecks

/-- The windows of the confirm list (R107, R108, R111, R112, R116). -/
def Obligations.ConfirmWindowsOpenAndClose : Prop :=
  Claims.WindowOpensOrTakesTheLatch ∧ Claims.WindowClosesAsAMiss ∧ Claims.WindowsKeepTheirTimes

/-- The stuck deadline (R105, R106). -/
def Obligations.StuckInputsDisableTheirChannels : Prop :=
  Claims.StuckDeadlineDisablesTheChannels ∧ Claims.NoStuckDeadlineNoEffect

/-- DAMP_APPLY, PULL_IN_END and DAMPER_CHECK_DEADLINE (R79, R81, R121 to R124). -/
def Obligations.DampersFollowTheirEvents : Prop :=
  Claims.DampEventMovesTheDamper
    ∧ Claims.RaiseWithoutASlotWaits
    ∧ Claims.LoweredDamperWithdrawsItsClaim
    ∧ Claims.NoDampEventNoMovement
    ∧ Claims.PullInAndCheckEndAtTheirTimes
    ∧ Claims.PullInEndGivesItsSlotOn

/-- RAIL_SAMPLE (R91 to R93, R107, R125, R132, R133, R135 to R139). -/
def Obligations.RailSampleActsOnTheBand : Prop :=
  Claims.VoltageIsReadInQuarterVolts ∧ Claims.RailSampleTakesItsEffect ∧ Claims.LeavingCutGrantsTheClaims

/-- The tachometer and the rotor's duty (R128 to R130). -/
def Obligations.RotorFollowsTheTachometer : Prop :=
  Claims.TachEdgeCountsWhileTheClockRuns ∧ Claims.RotorDutyFollowsTheCount
end

