-- ==== Sys2Proof/Laws/State.lean ====
section
/-! SUPPORT. The state after each named update, field by field, and the records that were set, read back. Every lemma holds by definition. -/

set_option Elab.async false

namespace Sys2Proof.Machine

/-! ### `State.advance` -/

@[simp] theorem State.advance_now (s : State) (u : Nat) : (s.advance u).now = max s.now u := rfl
@[simp] theorem State.advance_pending (s : State) (u : Nat) : (s.advance u).pending = s.pending := rfl
@[simp] theorem State.advance_resetNLow (s : State) (u : Nat) : (s.advance u).resetNLow = s.resetNLow := rfl
@[simp] theorem State.advance_supply (s : State) (u : Nat) : (s.advance u).supply = s.supply := rfl
@[simp] theorem State.advance_powered (s : State) (u : Nat) : (s.advance u).powered = s.powered := rfl
@[simp] theorem State.advance_straps (s : State) (u : Nat) : (s.advance u).straps = s.straps := rfl
@[simp] theorem State.advance_station (s : State) (u : Nat) : (s.advance u).station = s.station := rfl
@[simp] theorem State.advance_roster (s : State) (u : Nat) : (s.advance u).roster = s.roster := rfl
@[simp] theorem State.advance_port (s : State) (u : Nat) : (s.advance u).port = s.port := rfl
@[simp] theorem State.advance_clock (s : State) (u : Nat) : (s.advance u).clock = s.clock := rfl
@[simp] theorem State.advance_reader (s : State) (u : Nat) : (s.advance u).reader = s.reader := rfl
@[simp] theorem State.advance_planner (s : State) (u : Nat) : (s.advance u).planner = s.planner := rfl
@[simp] theorem State.advance_channels (s : State) (u : Nat) : (s.advance u).channels = s.channels := rfl
@[simp] theorem State.advance_inputs (s : State) (u : Nat) : (s.advance u).inputs = s.inputs := rfl
@[simp] theorem State.advance_confirm (s : State) (u : Nat) : (s.advance u).confirm = s.confirm := rfl
@[simp] theorem State.advance_dampers (s : State) (u : Nat) : (s.advance u).dampers = s.dampers := rfl
@[simp] theorem State.advance_rotor (s : State) (u : Nat) : (s.advance u).rotor = s.rotor := rfl
@[simp] theorem State.advance_rail (s : State) (u : Nat) : (s.advance u).rail = s.rail := rfl
@[simp] theorem State.advance_attention (s : State) (u : Nat) : (s.advance u).attention = s.attention := rfl
@[simp] theorem State.advance_handler (s : State) (u : Nat) : (s.advance u).handler = s.handler := rfl
@[simp] theorem State.advance_store (s : State) (u : Nat) : (s.advance u).store = s.store := rfl
@[simp] theorem State.advance_options (s : State) (u : Nat) : (s.advance u).options = s.options := rfl
@[simp] theorem State.advance_parts (s : State) (u : Nat) : (s.advance u).parts = s.parts := rfl
@[simp] theorem State.advance_freeCount (s : State) (u : Nat) : (s.advance u).freeCount = s.freeCount := rfl

/-! ### `State.setChannel` -/

@[simp] theorem State.setChannel_now (s : State) (c : Chan) (x : Channel) : (s.setChannel c x).now = s.now := rfl
@[simp] theorem State.setChannel_pending (s : State) (c : Chan) (x : Channel) : (s.setChannel c x).pending = s.pending := rfl
@[simp] theorem State.setChannel_resetNLow (s : State) (c : Chan) (x : Channel) : (s.setChannel c x).resetNLow = s.resetNLow := rfl
@[simp] theorem State.setChannel_supply (s : State) (c : Chan) (x : Channel) : (s.setChannel c x).supply = s.supply := rfl
@[simp] theorem State.setChannel_powered (s : State) (c : Chan) (x : Channel) : (s.setChannel c x).powered = s.powered := rfl
@[simp] theorem State.setChannel_straps (s : State) (c : Chan) (x : Channel) : (s.setChannel c x).straps = s.straps := rfl
@[simp] theorem State.setChannel_station (s : State) (c : Chan) (x : Channel) : (s.setChannel c x).station = s.station := rfl
@[simp] theorem State.setChannel_roster (s : State) (c : Chan) (x : Channel) : (s.setChannel c x).roster = s.roster := rfl
@[simp] theorem State.setChannel_port (s : State) (c : Chan) (x : Channel) : (s.setChannel c x).port = s.port := rfl
@[simp] theorem State.setChannel_clock (s : State) (c : Chan) (x : Channel) : (s.setChannel c x).clock = s.clock := rfl
@[simp] theorem State.setChannel_reader (s : State) (c : Chan) (x : Channel) : (s.setChannel c x).reader = s.reader := rfl
@[simp] theorem State.setChannel_planner (s : State) (c : Chan) (x : Channel) : (s.setChannel c x).planner = s.planner := rfl
@[simp] theorem State.setChannel_channels (s : State) (c : Chan) (x : Channel) : (s.setChannel c x).channels = s.channels.set c x := rfl
@[simp] theorem State.setChannel_inputs (s : State) (c : Chan) (x : Channel) : (s.setChannel c x).inputs = s.inputs := rfl
@[simp] theorem State.setChannel_confirm (s : State) (c : Chan) (x : Channel) : (s.setChannel c x).confirm = s.confirm := rfl
@[simp] theorem State.setChannel_dampers (s : State) (c : Chan) (x : Channel) : (s.setChannel c x).dampers = s.dampers := rfl
@[simp] theorem State.setChannel_rotor (s : State) (c : Chan) (x : Channel) : (s.setChannel c x).rotor = s.rotor := rfl
@[simp] theorem State.setChannel_rail (s : State) (c : Chan) (x : Channel) : (s.setChannel c x).rail = s.rail := rfl
@[simp] theorem State.setChannel_attention (s : State) (c : Chan) (x : Channel) : (s.setChannel c x).attention = s.attention := rfl
@[simp] theorem State.setChannel_handler (s : State) (c : Chan) (x : Channel) : (s.setChannel c x).handler = s.handler := rfl
@[simp] theorem State.setChannel_store (s : State) (c : Chan) (x : Channel) : (s.setChannel c x).store = s.store := rfl
@[simp] theorem State.setChannel_options (s : State) (c : Chan) (x : Channel) : (s.setChannel c x).options = s.options := rfl
@[simp] theorem State.setChannel_parts (s : State) (c : Chan) (x : Channel) : (s.setChannel c x).parts = s.parts := rfl
@[simp] theorem State.setChannel_freeCount (s : State) (c : Chan) (x : Channel) : (s.setChannel c x).freeCount = s.freeCount := rfl

/-! ### `State.setInput` -/

@[simp] theorem State.setInput_now (s : State) (i : Chan) (x : SensorInput) : (s.setInput i x).now = s.now := rfl
@[simp] theorem State.setInput_pending (s : State) (i : Chan) (x : SensorInput) : (s.setInput i x).pending = s.pending := rfl
@[simp] theorem State.setInput_resetNLow (s : State) (i : Chan) (x : SensorInput) : (s.setInput i x).resetNLow = s.resetNLow := rfl
@[simp] theorem State.setInput_supply (s : State) (i : Chan) (x : SensorInput) : (s.setInput i x).supply = s.supply := rfl
@[simp] theorem State.setInput_powered (s : State) (i : Chan) (x : SensorInput) : (s.setInput i x).powered = s.powered := rfl
@[simp] theorem State.setInput_straps (s : State) (i : Chan) (x : SensorInput) : (s.setInput i x).straps = s.straps := rfl
@[simp] theorem State.setInput_station (s : State) (i : Chan) (x : SensorInput) : (s.setInput i x).station = s.station := rfl
@[simp] theorem State.setInput_roster (s : State) (i : Chan) (x : SensorInput) : (s.setInput i x).roster = s.roster := rfl
@[simp] theorem State.setInput_port (s : State) (i : Chan) (x : SensorInput) : (s.setInput i x).port = s.port := rfl
@[simp] theorem State.setInput_clock (s : State) (i : Chan) (x : SensorInput) : (s.setInput i x).clock = s.clock := rfl
@[simp] theorem State.setInput_reader (s : State) (i : Chan) (x : SensorInput) : (s.setInput i x).reader = s.reader := rfl
@[simp] theorem State.setInput_planner (s : State) (i : Chan) (x : SensorInput) : (s.setInput i x).planner = s.planner := rfl
@[simp] theorem State.setInput_channels (s : State) (i : Chan) (x : SensorInput) : (s.setInput i x).channels = s.channels := rfl
@[simp] theorem State.setInput_inputs (s : State) (i : Chan) (x : SensorInput) : (s.setInput i x).inputs = s.inputs.set i x := rfl
@[simp] theorem State.setInput_confirm (s : State) (i : Chan) (x : SensorInput) : (s.setInput i x).confirm = s.confirm := rfl
@[simp] theorem State.setInput_dampers (s : State) (i : Chan) (x : SensorInput) : (s.setInput i x).dampers = s.dampers := rfl
@[simp] theorem State.setInput_rotor (s : State) (i : Chan) (x : SensorInput) : (s.setInput i x).rotor = s.rotor := rfl
@[simp] theorem State.setInput_rail (s : State) (i : Chan) (x : SensorInput) : (s.setInput i x).rail = s.rail := rfl
@[simp] theorem State.setInput_attention (s : State) (i : Chan) (x : SensorInput) : (s.setInput i x).attention = s.attention := rfl
@[simp] theorem State.setInput_handler (s : State) (i : Chan) (x : SensorInput) : (s.setInput i x).handler = s.handler := rfl
@[simp] theorem State.setInput_store (s : State) (i : Chan) (x : SensorInput) : (s.setInput i x).store = s.store := rfl
@[simp] theorem State.setInput_options (s : State) (i : Chan) (x : SensorInput) : (s.setInput i x).options = s.options := rfl
@[simp] theorem State.setInput_parts (s : State) (i : Chan) (x : SensorInput) : (s.setInput i x).parts = s.parts := rfl
@[simp] theorem State.setInput_freeCount (s : State) (i : Chan) (x : SensorInput) : (s.setInput i x).freeCount = s.freeCount := rfl

/-! ### `State.setDamper` -/

@[simp] theorem State.setDamper_now (s : State) (c : Chan) (x : Damper) : (s.setDamper c x).now = s.now := rfl
@[simp] theorem State.setDamper_pending (s : State) (c : Chan) (x : Damper) : (s.setDamper c x).pending = s.pending := rfl
@[simp] theorem State.setDamper_resetNLow (s : State) (c : Chan) (x : Damper) : (s.setDamper c x).resetNLow = s.resetNLow := rfl
@[simp] theorem State.setDamper_supply (s : State) (c : Chan) (x : Damper) : (s.setDamper c x).supply = s.supply := rfl
@[simp] theorem State.setDamper_powered (s : State) (c : Chan) (x : Damper) : (s.setDamper c x).powered = s.powered := rfl
@[simp] theorem State.setDamper_straps (s : State) (c : Chan) (x : Damper) : (s.setDamper c x).straps = s.straps := rfl
@[simp] theorem State.setDamper_station (s : State) (c : Chan) (x : Damper) : (s.setDamper c x).station = s.station := rfl
@[simp] theorem State.setDamper_roster (s : State) (c : Chan) (x : Damper) : (s.setDamper c x).roster = s.roster := rfl
@[simp] theorem State.setDamper_port (s : State) (c : Chan) (x : Damper) : (s.setDamper c x).port = s.port := rfl
@[simp] theorem State.setDamper_clock (s : State) (c : Chan) (x : Damper) : (s.setDamper c x).clock = s.clock := rfl
@[simp] theorem State.setDamper_reader (s : State) (c : Chan) (x : Damper) : (s.setDamper c x).reader = s.reader := rfl
@[simp] theorem State.setDamper_planner (s : State) (c : Chan) (x : Damper) : (s.setDamper c x).planner = s.planner := rfl
@[simp] theorem State.setDamper_channels (s : State) (c : Chan) (x : Damper) : (s.setDamper c x).channels = s.channels := rfl
@[simp] theorem State.setDamper_inputs (s : State) (c : Chan) (x : Damper) : (s.setDamper c x).inputs = s.inputs := rfl
@[simp] theorem State.setDamper_confirm (s : State) (c : Chan) (x : Damper) : (s.setDamper c x).confirm = s.confirm := rfl
@[simp] theorem State.setDamper_dampers (s : State) (c : Chan) (x : Damper) : (s.setDamper c x).dampers = s.dampers.set c x := rfl
@[simp] theorem State.setDamper_rotor (s : State) (c : Chan) (x : Damper) : (s.setDamper c x).rotor = s.rotor := rfl
@[simp] theorem State.setDamper_rail (s : State) (c : Chan) (x : Damper) : (s.setDamper c x).rail = s.rail := rfl
@[simp] theorem State.setDamper_attention (s : State) (c : Chan) (x : Damper) : (s.setDamper c x).attention = s.attention := rfl
@[simp] theorem State.setDamper_handler (s : State) (c : Chan) (x : Damper) : (s.setDamper c x).handler = s.handler := rfl
@[simp] theorem State.setDamper_store (s : State) (c : Chan) (x : Damper) : (s.setDamper c x).store = s.store := rfl
@[simp] theorem State.setDamper_options (s : State) (c : Chan) (x : Damper) : (s.setDamper c x).options = s.options := rfl
@[simp] theorem State.setDamper_parts (s : State) (c : Chan) (x : Damper) : (s.setDamper c x).parts = s.parts := rfl
@[simp] theorem State.setDamper_freeCount (s : State) (c : Chan) (x : Damper) : (s.setDamper c x).freeCount = s.freeCount := rfl

/-! ### `State.setPeer` -/

@[simp] theorem State.setPeer_now (s : State) (n : StationNo) (x : Option RosterEntry) : (s.setPeer n x).now = s.now := rfl
@[simp] theorem State.setPeer_pending (s : State) (n : StationNo) (x : Option RosterEntry) : (s.setPeer n x).pending = s.pending := rfl
@[simp] theorem State.setPeer_resetNLow (s : State) (n : StationNo) (x : Option RosterEntry) : (s.setPeer n x).resetNLow = s.resetNLow := rfl
@[simp] theorem State.setPeer_supply (s : State) (n : StationNo) (x : Option RosterEntry) : (s.setPeer n x).supply = s.supply := rfl
@[simp] theorem State.setPeer_powered (s : State) (n : StationNo) (x : Option RosterEntry) : (s.setPeer n x).powered = s.powered := rfl
@[simp] theorem State.setPeer_straps (s : State) (n : StationNo) (x : Option RosterEntry) : (s.setPeer n x).straps = s.straps := rfl
@[simp] theorem State.setPeer_station (s : State) (n : StationNo) (x : Option RosterEntry) : (s.setPeer n x).station = s.station := rfl
@[simp] theorem State.setPeer_roster (s : State) (n : StationNo) (x : Option RosterEntry) : (s.setPeer n x).roster = s.roster.set n x := rfl
@[simp] theorem State.setPeer_port (s : State) (n : StationNo) (x : Option RosterEntry) : (s.setPeer n x).port = s.port := rfl
@[simp] theorem State.setPeer_clock (s : State) (n : StationNo) (x : Option RosterEntry) : (s.setPeer n x).clock = s.clock := rfl
@[simp] theorem State.setPeer_reader (s : State) (n : StationNo) (x : Option RosterEntry) : (s.setPeer n x).reader = s.reader := rfl
@[simp] theorem State.setPeer_planner (s : State) (n : StationNo) (x : Option RosterEntry) : (s.setPeer n x).planner = s.planner := rfl
@[simp] theorem State.setPeer_channels (s : State) (n : StationNo) (x : Option RosterEntry) : (s.setPeer n x).channels = s.channels := rfl
@[simp] theorem State.setPeer_inputs (s : State) (n : StationNo) (x : Option RosterEntry) : (s.setPeer n x).inputs = s.inputs := rfl
@[simp] theorem State.setPeer_confirm (s : State) (n : StationNo) (x : Option RosterEntry) : (s.setPeer n x).confirm = s.confirm := rfl
@[simp] theorem State.setPeer_dampers (s : State) (n : StationNo) (x : Option RosterEntry) : (s.setPeer n x).dampers = s.dampers := rfl
@[simp] theorem State.setPeer_rotor (s : State) (n : StationNo) (x : Option RosterEntry) : (s.setPeer n x).rotor = s.rotor := rfl
@[simp] theorem State.setPeer_rail (s : State) (n : StationNo) (x : Option RosterEntry) : (s.setPeer n x).rail = s.rail := rfl
@[simp] theorem State.setPeer_attention (s : State) (n : StationNo) (x : Option RosterEntry) : (s.setPeer n x).attention = s.attention := rfl
@[simp] theorem State.setPeer_handler (s : State) (n : StationNo) (x : Option RosterEntry) : (s.setPeer n x).handler = s.handler := rfl
@[simp] theorem State.setPeer_store (s : State) (n : StationNo) (x : Option RosterEntry) : (s.setPeer n x).store = s.store := rfl
@[simp] theorem State.setPeer_options (s : State) (n : StationNo) (x : Option RosterEntry) : (s.setPeer n x).options = s.options := rfl
@[simp] theorem State.setPeer_parts (s : State) (n : StationNo) (x : Option RosterEntry) : (s.setPeer n x).parts = s.parts := rfl
@[simp] theorem State.setPeer_freeCount (s : State) (n : StationNo) (x : Option RosterEntry) : (s.setPeer n x).freeCount = s.freeCount := rfl

/-! ### `State.setStation` -/

@[simp] theorem State.setStation_now (s : State) (x : Station) : (s.setStation x).now = s.now := rfl
@[simp] theorem State.setStation_pending (s : State) (x : Station) : (s.setStation x).pending = s.pending := rfl
@[simp] theorem State.setStation_resetNLow (s : State) (x : Station) : (s.setStation x).resetNLow = s.resetNLow := rfl
@[simp] theorem State.setStation_supply (s : State) (x : Station) : (s.setStation x).supply = s.supply := rfl
@[simp] theorem State.setStation_powered (s : State) (x : Station) : (s.setStation x).powered = s.powered := rfl
@[simp] theorem State.setStation_straps (s : State) (x : Station) : (s.setStation x).straps = s.straps := rfl
@[simp] theorem State.setStation_station (s : State) (x : Station) : (s.setStation x).station = x := rfl
@[simp] theorem State.setStation_roster (s : State) (x : Station) : (s.setStation x).roster = s.roster := rfl
@[simp] theorem State.setStation_port (s : State) (x : Station) : (s.setStation x).port = s.port := rfl
@[simp] theorem State.setStation_clock (s : State) (x : Station) : (s.setStation x).clock = s.clock := rfl
@[simp] theorem State.setStation_reader (s : State) (x : Station) : (s.setStation x).reader = s.reader := rfl
@[simp] theorem State.setStation_planner (s : State) (x : Station) : (s.setStation x).planner = s.planner := rfl
@[simp] theorem State.setStation_channels (s : State) (x : Station) : (s.setStation x).channels = s.channels := rfl
@[simp] theorem State.setStation_inputs (s : State) (x : Station) : (s.setStation x).inputs = s.inputs := rfl
@[simp] theorem State.setStation_confirm (s : State) (x : Station) : (s.setStation x).confirm = s.confirm := rfl
@[simp] theorem State.setStation_dampers (s : State) (x : Station) : (s.setStation x).dampers = s.dampers := rfl
@[simp] theorem State.setStation_rotor (s : State) (x : Station) : (s.setStation x).rotor = s.rotor := rfl
@[simp] theorem State.setStation_rail (s : State) (x : Station) : (s.setStation x).rail = s.rail := rfl
@[simp] theorem State.setStation_attention (s : State) (x : Station) : (s.setStation x).attention = s.attention := rfl
@[simp] theorem State.setStation_handler (s : State) (x : Station) : (s.setStation x).handler = s.handler := rfl
@[simp] theorem State.setStation_store (s : State) (x : Station) : (s.setStation x).store = s.store := rfl
@[simp] theorem State.setStation_options (s : State) (x : Station) : (s.setStation x).options = s.options := rfl
@[simp] theorem State.setStation_parts (s : State) (x : Station) : (s.setStation x).parts = s.parts := rfl
@[simp] theorem State.setStation_freeCount (s : State) (x : Station) : (s.setStation x).freeCount = s.freeCount := rfl

/-! ### `State.setPort` -/

@[simp] theorem State.setPort_now (s : State) (x : Port) : (s.setPort x).now = s.now := rfl
@[simp] theorem State.setPort_pending (s : State) (x : Port) : (s.setPort x).pending = s.pending := rfl
@[simp] theorem State.setPort_resetNLow (s : State) (x : Port) : (s.setPort x).resetNLow = s.resetNLow := rfl
@[simp] theorem State.setPort_supply (s : State) (x : Port) : (s.setPort x).supply = s.supply := rfl
@[simp] theorem State.setPort_powered (s : State) (x : Port) : (s.setPort x).powered = s.powered := rfl
@[simp] theorem State.setPort_straps (s : State) (x : Port) : (s.setPort x).straps = s.straps := rfl
@[simp] theorem State.setPort_station (s : State) (x : Port) : (s.setPort x).station = s.station := rfl
@[simp] theorem State.setPort_roster (s : State) (x : Port) : (s.setPort x).roster = s.roster := rfl
@[simp] theorem State.setPort_port (s : State) (x : Port) : (s.setPort x).port = x := rfl
@[simp] theorem State.setPort_clock (s : State) (x : Port) : (s.setPort x).clock = s.clock := rfl
@[simp] theorem State.setPort_reader (s : State) (x : Port) : (s.setPort x).reader = s.reader := rfl
@[simp] theorem State.setPort_planner (s : State) (x : Port) : (s.setPort x).planner = s.planner := rfl
@[simp] theorem State.setPort_channels (s : State) (x : Port) : (s.setPort x).channels = s.channels := rfl
@[simp] theorem State.setPort_inputs (s : State) (x : Port) : (s.setPort x).inputs = s.inputs := rfl
@[simp] theorem State.setPort_confirm (s : State) (x : Port) : (s.setPort x).confirm = s.confirm := rfl
@[simp] theorem State.setPort_dampers (s : State) (x : Port) : (s.setPort x).dampers = s.dampers := rfl
@[simp] theorem State.setPort_rotor (s : State) (x : Port) : (s.setPort x).rotor = s.rotor := rfl
@[simp] theorem State.setPort_rail (s : State) (x : Port) : (s.setPort x).rail = s.rail := rfl
@[simp] theorem State.setPort_attention (s : State) (x : Port) : (s.setPort x).attention = s.attention := rfl
@[simp] theorem State.setPort_handler (s : State) (x : Port) : (s.setPort x).handler = s.handler := rfl
@[simp] theorem State.setPort_store (s : State) (x : Port) : (s.setPort x).store = s.store := rfl
@[simp] theorem State.setPort_options (s : State) (x : Port) : (s.setPort x).options = s.options := rfl
@[simp] theorem State.setPort_parts (s : State) (x : Port) : (s.setPort x).parts = s.parts := rfl
@[simp] theorem State.setPort_freeCount (s : State) (x : Port) : (s.setPort x).freeCount = s.freeCount := rfl

/-! ### `State.setClock` -/

@[simp] theorem State.setClock_now (s : State) (x : Clock) : (s.setClock x).now = s.now := rfl
@[simp] theorem State.setClock_pending (s : State) (x : Clock) : (s.setClock x).pending = s.pending := rfl
@[simp] theorem State.setClock_resetNLow (s : State) (x : Clock) : (s.setClock x).resetNLow = s.resetNLow := rfl
@[simp] theorem State.setClock_supply (s : State) (x : Clock) : (s.setClock x).supply = s.supply := rfl
@[simp] theorem State.setClock_powered (s : State) (x : Clock) : (s.setClock x).powered = s.powered := rfl
@[simp] theorem State.setClock_straps (s : State) (x : Clock) : (s.setClock x).straps = s.straps := rfl
@[simp] theorem State.setClock_station (s : State) (x : Clock) : (s.setClock x).station = s.station := rfl
@[simp] theorem State.setClock_roster (s : State) (x : Clock) : (s.setClock x).roster = s.roster := rfl
@[simp] theorem State.setClock_port (s : State) (x : Clock) : (s.setClock x).port = s.port := rfl
@[simp] theorem State.setClock_clock (s : State) (x : Clock) : (s.setClock x).clock = x := rfl
@[simp] theorem State.setClock_reader (s : State) (x : Clock) : (s.setClock x).reader = s.reader := rfl
@[simp] theorem State.setClock_planner (s : State) (x : Clock) : (s.setClock x).planner = s.planner := rfl
@[simp] theorem State.setClock_channels (s : State) (x : Clock) : (s.setClock x).channels = s.channels := rfl
@[simp] theorem State.setClock_inputs (s : State) (x : Clock) : (s.setClock x).inputs = s.inputs := rfl
@[simp] theorem State.setClock_confirm (s : State) (x : Clock) : (s.setClock x).confirm = s.confirm := rfl
@[simp] theorem State.setClock_dampers (s : State) (x : Clock) : (s.setClock x).dampers = s.dampers := rfl
@[simp] theorem State.setClock_rotor (s : State) (x : Clock) : (s.setClock x).rotor = s.rotor := rfl
@[simp] theorem State.setClock_rail (s : State) (x : Clock) : (s.setClock x).rail = s.rail := rfl
@[simp] theorem State.setClock_attention (s : State) (x : Clock) : (s.setClock x).attention = s.attention := rfl
@[simp] theorem State.setClock_handler (s : State) (x : Clock) : (s.setClock x).handler = s.handler := rfl
@[simp] theorem State.setClock_store (s : State) (x : Clock) : (s.setClock x).store = s.store := rfl
@[simp] theorem State.setClock_options (s : State) (x : Clock) : (s.setClock x).options = s.options := rfl
@[simp] theorem State.setClock_parts (s : State) (x : Clock) : (s.setClock x).parts = s.parts := rfl
@[simp] theorem State.setClock_freeCount (s : State) (x : Clock) : (s.setClock x).freeCount = s.freeCount := rfl

/-! ### `State.setReader` -/

@[simp] theorem State.setReader_now (s : State) (x : Reader) : (s.setReader x).now = s.now := rfl
@[simp] theorem State.setReader_pending (s : State) (x : Reader) : (s.setReader x).pending = s.pending := rfl
@[simp] theorem State.setReader_resetNLow (s : State) (x : Reader) : (s.setReader x).resetNLow = s.resetNLow := rfl
@[simp] theorem State.setReader_supply (s : State) (x : Reader) : (s.setReader x).supply = s.supply := rfl
@[simp] theorem State.setReader_powered (s : State) (x : Reader) : (s.setReader x).powered = s.powered := rfl
@[simp] theorem State.setReader_straps (s : State) (x : Reader) : (s.setReader x).straps = s.straps := rfl
@[simp] theorem State.setReader_station (s : State) (x : Reader) : (s.setReader x).station = s.station := rfl
@[simp] theorem State.setReader_roster (s : State) (x : Reader) : (s.setReader x).roster = s.roster := rfl
@[simp] theorem State.setReader_port (s : State) (x : Reader) : (s.setReader x).port = s.port := rfl
@[simp] theorem State.setReader_clock (s : State) (x : Reader) : (s.setReader x).clock = s.clock := rfl
@[simp] theorem State.setReader_reader (s : State) (x : Reader) : (s.setReader x).reader = x := rfl
@[simp] theorem State.setReader_planner (s : State) (x : Reader) : (s.setReader x).planner = s.planner := rfl
@[simp] theorem State.setReader_channels (s : State) (x : Reader) : (s.setReader x).channels = s.channels := rfl
@[simp] theorem State.setReader_inputs (s : State) (x : Reader) : (s.setReader x).inputs = s.inputs := rfl
@[simp] theorem State.setReader_confirm (s : State) (x : Reader) : (s.setReader x).confirm = s.confirm := rfl
@[simp] theorem State.setReader_dampers (s : State) (x : Reader) : (s.setReader x).dampers = s.dampers := rfl
@[simp] theorem State.setReader_rotor (s : State) (x : Reader) : (s.setReader x).rotor = s.rotor := rfl
@[simp] theorem State.setReader_rail (s : State) (x : Reader) : (s.setReader x).rail = s.rail := rfl
@[simp] theorem State.setReader_attention (s : State) (x : Reader) : (s.setReader x).attention = s.attention := rfl
@[simp] theorem State.setReader_handler (s : State) (x : Reader) : (s.setReader x).handler = s.handler := rfl
@[simp] theorem State.setReader_store (s : State) (x : Reader) : (s.setReader x).store = s.store := rfl
@[simp] theorem State.setReader_options (s : State) (x : Reader) : (s.setReader x).options = s.options := rfl
@[simp] theorem State.setReader_parts (s : State) (x : Reader) : (s.setReader x).parts = s.parts := rfl
@[simp] theorem State.setReader_freeCount (s : State) (x : Reader) : (s.setReader x).freeCount = s.freeCount := rfl

/-! ### `State.setPlanner` -/

@[simp] theorem State.setPlanner_now (s : State) (x : Planner) : (s.setPlanner x).now = s.now := rfl
@[simp] theorem State.setPlanner_pending (s : State) (x : Planner) : (s.setPlanner x).pending = s.pending := rfl
@[simp] theorem State.setPlanner_resetNLow (s : State) (x : Planner) : (s.setPlanner x).resetNLow = s.resetNLow := rfl
@[simp] theorem State.setPlanner_supply (s : State) (x : Planner) : (s.setPlanner x).supply = s.supply := rfl
@[simp] theorem State.setPlanner_powered (s : State) (x : Planner) : (s.setPlanner x).powered = s.powered := rfl
@[simp] theorem State.setPlanner_straps (s : State) (x : Planner) : (s.setPlanner x).straps = s.straps := rfl
@[simp] theorem State.setPlanner_station (s : State) (x : Planner) : (s.setPlanner x).station = s.station := rfl
@[simp] theorem State.setPlanner_roster (s : State) (x : Planner) : (s.setPlanner x).roster = s.roster := rfl
@[simp] theorem State.setPlanner_port (s : State) (x : Planner) : (s.setPlanner x).port = s.port := rfl
@[simp] theorem State.setPlanner_clock (s : State) (x : Planner) : (s.setPlanner x).clock = s.clock := rfl
@[simp] theorem State.setPlanner_reader (s : State) (x : Planner) : (s.setPlanner x).reader = s.reader := rfl
@[simp] theorem State.setPlanner_planner (s : State) (x : Planner) : (s.setPlanner x).planner = x := rfl
@[simp] theorem State.setPlanner_channels (s : State) (x : Planner) : (s.setPlanner x).channels = s.channels := rfl
@[simp] theorem State.setPlanner_inputs (s : State) (x : Planner) : (s.setPlanner x).inputs = s.inputs := rfl
@[simp] theorem State.setPlanner_confirm (s : State) (x : Planner) : (s.setPlanner x).confirm = s.confirm := rfl
@[simp] theorem State.setPlanner_dampers (s : State) (x : Planner) : (s.setPlanner x).dampers = s.dampers := rfl
@[simp] theorem State.setPlanner_rotor (s : State) (x : Planner) : (s.setPlanner x).rotor = s.rotor := rfl
@[simp] theorem State.setPlanner_rail (s : State) (x : Planner) : (s.setPlanner x).rail = s.rail := rfl
@[simp] theorem State.setPlanner_attention (s : State) (x : Planner) : (s.setPlanner x).attention = s.attention := rfl
@[simp] theorem State.setPlanner_handler (s : State) (x : Planner) : (s.setPlanner x).handler = s.handler := rfl
@[simp] theorem State.setPlanner_store (s : State) (x : Planner) : (s.setPlanner x).store = s.store := rfl
@[simp] theorem State.setPlanner_options (s : State) (x : Planner) : (s.setPlanner x).options = s.options := rfl
@[simp] theorem State.setPlanner_parts (s : State) (x : Planner) : (s.setPlanner x).parts = s.parts := rfl
@[simp] theorem State.setPlanner_freeCount (s : State) (x : Planner) : (s.setPlanner x).freeCount = s.freeCount := rfl

/-! ### `State.setConfirm` -/

@[simp] theorem State.setConfirm_now (s : State) (x : List ConfirmRecord) : (s.setConfirm x).now = s.now := rfl
@[simp] theorem State.setConfirm_pending (s : State) (x : List ConfirmRecord) : (s.setConfirm x).pending = s.pending := rfl
@[simp] theorem State.setConfirm_resetNLow (s : State) (x : List ConfirmRecord) : (s.setConfirm x).resetNLow = s.resetNLow := rfl
@[simp] theorem State.setConfirm_supply (s : State) (x : List ConfirmRecord) : (s.setConfirm x).supply = s.supply := rfl
@[simp] theorem State.setConfirm_powered (s : State) (x : List ConfirmRecord) : (s.setConfirm x).powered = s.powered := rfl
@[simp] theorem State.setConfirm_straps (s : State) (x : List ConfirmRecord) : (s.setConfirm x).straps = s.straps := rfl
@[simp] theorem State.setConfirm_station (s : State) (x : List ConfirmRecord) : (s.setConfirm x).station = s.station := rfl
@[simp] theorem State.setConfirm_roster (s : State) (x : List ConfirmRecord) : (s.setConfirm x).roster = s.roster := rfl
@[simp] theorem State.setConfirm_port (s : State) (x : List ConfirmRecord) : (s.setConfirm x).port = s.port := rfl
@[simp] theorem State.setConfirm_clock (s : State) (x : List ConfirmRecord) : (s.setConfirm x).clock = s.clock := rfl
@[simp] theorem State.setConfirm_reader (s : State) (x : List ConfirmRecord) : (s.setConfirm x).reader = s.reader := rfl
@[simp] theorem State.setConfirm_planner (s : State) (x : List ConfirmRecord) : (s.setConfirm x).planner = s.planner := rfl
@[simp] theorem State.setConfirm_channels (s : State) (x : List ConfirmRecord) : (s.setConfirm x).channels = s.channels := rfl
@[simp] theorem State.setConfirm_inputs (s : State) (x : List ConfirmRecord) : (s.setConfirm x).inputs = s.inputs := rfl
@[simp] theorem State.setConfirm_confirm (s : State) (x : List ConfirmRecord) : (s.setConfirm x).confirm = x := rfl
@[simp] theorem State.setConfirm_dampers (s : State) (x : List ConfirmRecord) : (s.setConfirm x).dampers = s.dampers := rfl
@[simp] theorem State.setConfirm_rotor (s : State) (x : List ConfirmRecord) : (s.setConfirm x).rotor = s.rotor := rfl
@[simp] theorem State.setConfirm_rail (s : State) (x : List ConfirmRecord) : (s.setConfirm x).rail = s.rail := rfl
@[simp] theorem State.setConfirm_attention (s : State) (x : List ConfirmRecord) : (s.setConfirm x).attention = s.attention := rfl
@[simp] theorem State.setConfirm_handler (s : State) (x : List ConfirmRecord) : (s.setConfirm x).handler = s.handler := rfl
@[simp] theorem State.setConfirm_store (s : State) (x : List ConfirmRecord) : (s.setConfirm x).store = s.store := rfl
@[simp] theorem State.setConfirm_options (s : State) (x : List ConfirmRecord) : (s.setConfirm x).options = s.options := rfl
@[simp] theorem State.setConfirm_parts (s : State) (x : List ConfirmRecord) : (s.setConfirm x).parts = s.parts := rfl
@[simp] theorem State.setConfirm_freeCount (s : State) (x : List ConfirmRecord) : (s.setConfirm x).freeCount = s.freeCount := rfl

/-! ### `State.setRotor` -/

@[simp] theorem State.setRotor_now (s : State) (x : Rotor) : (s.setRotor x).now = s.now := rfl
@[simp] theorem State.setRotor_pending (s : State) (x : Rotor) : (s.setRotor x).pending = s.pending := rfl
@[simp] theorem State.setRotor_resetNLow (s : State) (x : Rotor) : (s.setRotor x).resetNLow = s.resetNLow := rfl
@[simp] theorem State.setRotor_supply (s : State) (x : Rotor) : (s.setRotor x).supply = s.supply := rfl
@[simp] theorem State.setRotor_powered (s : State) (x : Rotor) : (s.setRotor x).powered = s.powered := rfl
@[simp] theorem State.setRotor_straps (s : State) (x : Rotor) : (s.setRotor x).straps = s.straps := rfl
@[simp] theorem State.setRotor_station (s : State) (x : Rotor) : (s.setRotor x).station = s.station := rfl
@[simp] theorem State.setRotor_roster (s : State) (x : Rotor) : (s.setRotor x).roster = s.roster := rfl
@[simp] theorem State.setRotor_port (s : State) (x : Rotor) : (s.setRotor x).port = s.port := rfl
@[simp] theorem State.setRotor_clock (s : State) (x : Rotor) : (s.setRotor x).clock = s.clock := rfl
@[simp] theorem State.setRotor_reader (s : State) (x : Rotor) : (s.setRotor x).reader = s.reader := rfl
@[simp] theorem State.setRotor_planner (s : State) (x : Rotor) : (s.setRotor x).planner = s.planner := rfl
@[simp] theorem State.setRotor_channels (s : State) (x : Rotor) : (s.setRotor x).channels = s.channels := rfl
@[simp] theorem State.setRotor_inputs (s : State) (x : Rotor) : (s.setRotor x).inputs = s.inputs := rfl
@[simp] theorem State.setRotor_confirm (s : State) (x : Rotor) : (s.setRotor x).confirm = s.confirm := rfl
@[simp] theorem State.setRotor_dampers (s : State) (x : Rotor) : (s.setRotor x).dampers = s.dampers := rfl
@[simp] theorem State.setRotor_rotor (s : State) (x : Rotor) : (s.setRotor x).rotor = x := rfl
@[simp] theorem State.setRotor_rail (s : State) (x : Rotor) : (s.setRotor x).rail = s.rail := rfl
@[simp] theorem State.setRotor_attention (s : State) (x : Rotor) : (s.setRotor x).attention = s.attention := rfl
@[simp] theorem State.setRotor_handler (s : State) (x : Rotor) : (s.setRotor x).handler = s.handler := rfl
@[simp] theorem State.setRotor_store (s : State) (x : Rotor) : (s.setRotor x).store = s.store := rfl
@[simp] theorem State.setRotor_options (s : State) (x : Rotor) : (s.setRotor x).options = s.options := rfl
@[simp] theorem State.setRotor_parts (s : State) (x : Rotor) : (s.setRotor x).parts = s.parts := rfl
@[simp] theorem State.setRotor_freeCount (s : State) (x : Rotor) : (s.setRotor x).freeCount = s.freeCount := rfl

/-! ### `State.setRail` -/

@[simp] theorem State.setRail_now (s : State) (x : Rail) : (s.setRail x).now = s.now := rfl
@[simp] theorem State.setRail_pending (s : State) (x : Rail) : (s.setRail x).pending = s.pending := rfl
@[simp] theorem State.setRail_resetNLow (s : State) (x : Rail) : (s.setRail x).resetNLow = s.resetNLow := rfl
@[simp] theorem State.setRail_supply (s : State) (x : Rail) : (s.setRail x).supply = s.supply := rfl
@[simp] theorem State.setRail_powered (s : State) (x : Rail) : (s.setRail x).powered = s.powered := rfl
@[simp] theorem State.setRail_straps (s : State) (x : Rail) : (s.setRail x).straps = s.straps := rfl
@[simp] theorem State.setRail_station (s : State) (x : Rail) : (s.setRail x).station = s.station := rfl
@[simp] theorem State.setRail_roster (s : State) (x : Rail) : (s.setRail x).roster = s.roster := rfl
@[simp] theorem State.setRail_port (s : State) (x : Rail) : (s.setRail x).port = s.port := rfl
@[simp] theorem State.setRail_clock (s : State) (x : Rail) : (s.setRail x).clock = s.clock := rfl
@[simp] theorem State.setRail_reader (s : State) (x : Rail) : (s.setRail x).reader = s.reader := rfl
@[simp] theorem State.setRail_planner (s : State) (x : Rail) : (s.setRail x).planner = s.planner := rfl
@[simp] theorem State.setRail_channels (s : State) (x : Rail) : (s.setRail x).channels = s.channels := rfl
@[simp] theorem State.setRail_inputs (s : State) (x : Rail) : (s.setRail x).inputs = s.inputs := rfl
@[simp] theorem State.setRail_confirm (s : State) (x : Rail) : (s.setRail x).confirm = s.confirm := rfl
@[simp] theorem State.setRail_dampers (s : State) (x : Rail) : (s.setRail x).dampers = s.dampers := rfl
@[simp] theorem State.setRail_rotor (s : State) (x : Rail) : (s.setRail x).rotor = s.rotor := rfl
@[simp] theorem State.setRail_rail (s : State) (x : Rail) : (s.setRail x).rail = x := rfl
@[simp] theorem State.setRail_attention (s : State) (x : Rail) : (s.setRail x).attention = s.attention := rfl
@[simp] theorem State.setRail_handler (s : State) (x : Rail) : (s.setRail x).handler = s.handler := rfl
@[simp] theorem State.setRail_store (s : State) (x : Rail) : (s.setRail x).store = s.store := rfl
@[simp] theorem State.setRail_options (s : State) (x : Rail) : (s.setRail x).options = s.options := rfl
@[simp] theorem State.setRail_parts (s : State) (x : Rail) : (s.setRail x).parts = s.parts := rfl
@[simp] theorem State.setRail_freeCount (s : State) (x : Rail) : (s.setRail x).freeCount = s.freeCount := rfl

/-! ### `State.setAttention` -/

@[simp] theorem State.setAttention_now (s : State) (x : Attention) : (s.setAttention x).now = s.now := rfl
@[simp] theorem State.setAttention_pending (s : State) (x : Attention) : (s.setAttention x).pending = s.pending := rfl
@[simp] theorem State.setAttention_resetNLow (s : State) (x : Attention) : (s.setAttention x).resetNLow = s.resetNLow := rfl
@[simp] theorem State.setAttention_supply (s : State) (x : Attention) : (s.setAttention x).supply = s.supply := rfl
@[simp] theorem State.setAttention_powered (s : State) (x : Attention) : (s.setAttention x).powered = s.powered := rfl
@[simp] theorem State.setAttention_straps (s : State) (x : Attention) : (s.setAttention x).straps = s.straps := rfl
@[simp] theorem State.setAttention_station (s : State) (x : Attention) : (s.setAttention x).station = s.station := rfl
@[simp] theorem State.setAttention_roster (s : State) (x : Attention) : (s.setAttention x).roster = s.roster := rfl
@[simp] theorem State.setAttention_port (s : State) (x : Attention) : (s.setAttention x).port = s.port := rfl
@[simp] theorem State.setAttention_clock (s : State) (x : Attention) : (s.setAttention x).clock = s.clock := rfl
@[simp] theorem State.setAttention_reader (s : State) (x : Attention) : (s.setAttention x).reader = s.reader := rfl
@[simp] theorem State.setAttention_planner (s : State) (x : Attention) : (s.setAttention x).planner = s.planner := rfl
@[simp] theorem State.setAttention_channels (s : State) (x : Attention) : (s.setAttention x).channels = s.channels := rfl
@[simp] theorem State.setAttention_inputs (s : State) (x : Attention) : (s.setAttention x).inputs = s.inputs := rfl
@[simp] theorem State.setAttention_confirm (s : State) (x : Attention) : (s.setAttention x).confirm = s.confirm := rfl
@[simp] theorem State.setAttention_dampers (s : State) (x : Attention) : (s.setAttention x).dampers = s.dampers := rfl
@[simp] theorem State.setAttention_rotor (s : State) (x : Attention) : (s.setAttention x).rotor = s.rotor := rfl
@[simp] theorem State.setAttention_rail (s : State) (x : Attention) : (s.setAttention x).rail = s.rail := rfl
@[simp] theorem State.setAttention_attention (s : State) (x : Attention) : (s.setAttention x).attention = x := rfl
@[simp] theorem State.setAttention_handler (s : State) (x : Attention) : (s.setAttention x).handler = s.handler := rfl
@[simp] theorem State.setAttention_store (s : State) (x : Attention) : (s.setAttention x).store = s.store := rfl
@[simp] theorem State.setAttention_options (s : State) (x : Attention) : (s.setAttention x).options = s.options := rfl
@[simp] theorem State.setAttention_parts (s : State) (x : Attention) : (s.setAttention x).parts = s.parts := rfl
@[simp] theorem State.setAttention_freeCount (s : State) (x : Attention) : (s.setAttention x).freeCount = s.freeCount := rfl

/-! ### `State.setHandler` -/

@[simp] theorem State.setHandler_now (s : State) (x : Handler) : (s.setHandler x).now = s.now := rfl
@[simp] theorem State.setHandler_pending (s : State) (x : Handler) : (s.setHandler x).pending = s.pending := rfl
@[simp] theorem State.setHandler_resetNLow (s : State) (x : Handler) : (s.setHandler x).resetNLow = s.resetNLow := rfl
@[simp] theorem State.setHandler_supply (s : State) (x : Handler) : (s.setHandler x).supply = s.supply := rfl
@[simp] theorem State.setHandler_powered (s : State) (x : Handler) : (s.setHandler x).powered = s.powered := rfl
@[simp] theorem State.setHandler_straps (s : State) (x : Handler) : (s.setHandler x).straps = s.straps := rfl
@[simp] theorem State.setHandler_station (s : State) (x : Handler) : (s.setHandler x).station = s.station := rfl
@[simp] theorem State.setHandler_roster (s : State) (x : Handler) : (s.setHandler x).roster = s.roster := rfl
@[simp] theorem State.setHandler_port (s : State) (x : Handler) : (s.setHandler x).port = s.port := rfl
@[simp] theorem State.setHandler_clock (s : State) (x : Handler) : (s.setHandler x).clock = s.clock := rfl
@[simp] theorem State.setHandler_reader (s : State) (x : Handler) : (s.setHandler x).reader = s.reader := rfl
@[simp] theorem State.setHandler_planner (s : State) (x : Handler) : (s.setHandler x).planner = s.planner := rfl
@[simp] theorem State.setHandler_channels (s : State) (x : Handler) : (s.setHandler x).channels = s.channels := rfl
@[simp] theorem State.setHandler_inputs (s : State) (x : Handler) : (s.setHandler x).inputs = s.inputs := rfl
@[simp] theorem State.setHandler_confirm (s : State) (x : Handler) : (s.setHandler x).confirm = s.confirm := rfl
@[simp] theorem State.setHandler_dampers (s : State) (x : Handler) : (s.setHandler x).dampers = s.dampers := rfl
@[simp] theorem State.setHandler_rotor (s : State) (x : Handler) : (s.setHandler x).rotor = s.rotor := rfl
@[simp] theorem State.setHandler_rail (s : State) (x : Handler) : (s.setHandler x).rail = s.rail := rfl
@[simp] theorem State.setHandler_attention (s : State) (x : Handler) : (s.setHandler x).attention = s.attention := rfl
@[simp] theorem State.setHandler_handler (s : State) (x : Handler) : (s.setHandler x).handler = x := rfl
@[simp] theorem State.setHandler_store (s : State) (x : Handler) : (s.setHandler x).store = s.store := rfl
@[simp] theorem State.setHandler_options (s : State) (x : Handler) : (s.setHandler x).options = s.options := rfl
@[simp] theorem State.setHandler_parts (s : State) (x : Handler) : (s.setHandler x).parts = s.parts := rfl
@[simp] theorem State.setHandler_freeCount (s : State) (x : Handler) : (s.setHandler x).freeCount = s.freeCount := rfl

/-! ### `State.raise` -/

@[simp] theorem State.raise_now (s : State) (x : Source) (d : Nat) : (s.raise x d).now = s.now := rfl
@[simp] theorem State.raise_pending (s : State) (x : Source) (d : Nat) : (s.raise x d).pending = s.pending := rfl
@[simp] theorem State.raise_resetNLow (s : State) (x : Source) (d : Nat) : (s.raise x d).resetNLow = s.resetNLow := rfl
@[simp] theorem State.raise_supply (s : State) (x : Source) (d : Nat) : (s.raise x d).supply = s.supply := rfl
@[simp] theorem State.raise_powered (s : State) (x : Source) (d : Nat) : (s.raise x d).powered = s.powered := rfl
@[simp] theorem State.raise_straps (s : State) (x : Source) (d : Nat) : (s.raise x d).straps = s.straps := rfl
@[simp] theorem State.raise_station (s : State) (x : Source) (d : Nat) : (s.raise x d).station = s.station := rfl
@[simp] theorem State.raise_roster (s : State) (x : Source) (d : Nat) : (s.raise x d).roster = s.roster := rfl
@[simp] theorem State.raise_port (s : State) (x : Source) (d : Nat) : (s.raise x d).port = s.port := rfl
@[simp] theorem State.raise_clock (s : State) (x : Source) (d : Nat) : (s.raise x d).clock = s.clock := rfl
@[simp] theorem State.raise_reader (s : State) (x : Source) (d : Nat) : (s.raise x d).reader = s.reader := rfl
@[simp] theorem State.raise_planner (s : State) (x : Source) (d : Nat) : (s.raise x d).planner = s.planner := rfl
@[simp] theorem State.raise_channels (s : State) (x : Source) (d : Nat) : (s.raise x d).channels = s.channels := rfl
@[simp] theorem State.raise_inputs (s : State) (x : Source) (d : Nat) : (s.raise x d).inputs = s.inputs := rfl
@[simp] theorem State.raise_confirm (s : State) (x : Source) (d : Nat) : (s.raise x d).confirm = s.confirm := rfl
@[simp] theorem State.raise_dampers (s : State) (x : Source) (d : Nat) : (s.raise x d).dampers = s.dampers := rfl
@[simp] theorem State.raise_rotor (s : State) (x : Source) (d : Nat) : (s.raise x d).rotor = s.rotor := rfl
@[simp] theorem State.raise_rail (s : State) (x : Source) (d : Nat) : (s.raise x d).rail = s.rail := rfl
@[simp] theorem State.raise_handler (s : State) (x : Source) (d : Nat) : (s.raise x d).handler = s.handler := rfl
@[simp] theorem State.raise_store (s : State) (x : Source) (d : Nat) : (s.raise x d).store = s.store := rfl
@[simp] theorem State.raise_options (s : State) (x : Source) (d : Nat) : (s.raise x d).options = s.options := rfl
@[simp] theorem State.raise_parts (s : State) (x : Source) (d : Nat) : (s.raise x d).parts = s.parts := rfl
@[simp] theorem State.raise_freeCount (s : State) (x : Source) (d : Nat) : (s.raise x d).freeCount = s.freeCount := rfl

/-! ### `State.clearItem` -/

@[simp] theorem State.clearItem_now (s : State) (x : Source) : (s.clearItem x).now = s.now := rfl
@[simp] theorem State.clearItem_pending (s : State) (x : Source) : (s.clearItem x).pending = s.pending := rfl
@[simp] theorem State.clearItem_resetNLow (s : State) (x : Source) : (s.clearItem x).resetNLow = s.resetNLow := rfl
@[simp] theorem State.clearItem_supply (s : State) (x : Source) : (s.clearItem x).supply = s.supply := rfl
@[simp] theorem State.clearItem_powered (s : State) (x : Source) : (s.clearItem x).powered = s.powered := rfl
@[simp] theorem State.clearItem_straps (s : State) (x : Source) : (s.clearItem x).straps = s.straps := rfl
@[simp] theorem State.clearItem_station (s : State) (x : Source) : (s.clearItem x).station = s.station := rfl
@[simp] theorem State.clearItem_roster (s : State) (x : Source) : (s.clearItem x).roster = s.roster := rfl
@[simp] theorem State.clearItem_port (s : State) (x : Source) : (s.clearItem x).port = s.port := rfl
@[simp] theorem State.clearItem_clock (s : State) (x : Source) : (s.clearItem x).clock = s.clock := rfl
@[simp] theorem State.clearItem_reader (s : State) (x : Source) : (s.clearItem x).reader = s.reader := rfl
@[simp] theorem State.clearItem_planner (s : State) (x : Source) : (s.clearItem x).planner = s.planner := rfl
@[simp] theorem State.clearItem_channels (s : State) (x : Source) : (s.clearItem x).channels = s.channels := rfl
@[simp] theorem State.clearItem_inputs (s : State) (x : Source) : (s.clearItem x).inputs = s.inputs := rfl
@[simp] theorem State.clearItem_confirm (s : State) (x : Source) : (s.clearItem x).confirm = s.confirm := rfl
@[simp] theorem State.clearItem_dampers (s : State) (x : Source) : (s.clearItem x).dampers = s.dampers := rfl
@[simp] theorem State.clearItem_rotor (s : State) (x : Source) : (s.clearItem x).rotor = s.rotor := rfl
@[simp] theorem State.clearItem_rail (s : State) (x : Source) : (s.clearItem x).rail = s.rail := rfl
@[simp] theorem State.clearItem_handler (s : State) (x : Source) : (s.clearItem x).handler = s.handler := rfl
@[simp] theorem State.clearItem_store (s : State) (x : Source) : (s.clearItem x).store = s.store := rfl
@[simp] theorem State.clearItem_options (s : State) (x : Source) : (s.clearItem x).options = s.options := rfl
@[simp] theorem State.clearItem_parts (s : State) (x : Source) : (s.clearItem x).parts = s.parts := rfl
@[simp] theorem State.clearItem_freeCount (s : State) (x : Source) : (s.clearItem x).freeCount = s.freeCount := rfl

/-! ### Records read after an update of another field -/

@[simp] theorem State.advance_settings (s : State) (u : Nat) (k : Chan) : (s.advance u).settings k = s.settings k := rfl
@[simp] theorem State.setChannel_settings (s : State) (c : Chan) (x : Channel) (k : Chan) : (s.setChannel c x).settings k = s.settings k := rfl
@[simp] theorem State.setInput_settings (s : State) (i : Chan) (x : SensorInput) (k : Chan) : (s.setInput i x).settings k = s.settings k := rfl
@[simp] theorem State.setDamper_settings (s : State) (c : Chan) (x : Damper) (k : Chan) : (s.setDamper c x).settings k = s.settings k := rfl
@[simp] theorem State.setPeer_settings (s : State) (n : StationNo) (x : Option RosterEntry) (k : Chan) : (s.setPeer n x).settings k = s.settings k := rfl
@[simp] theorem State.setStation_settings (s : State) (x : Station) (k : Chan) : (s.setStation x).settings k = s.settings k := rfl
@[simp] theorem State.setPort_settings (s : State) (x : Port) (k : Chan) : (s.setPort x).settings k = s.settings k := rfl
@[simp] theorem State.setClock_settings (s : State) (x : Clock) (k : Chan) : (s.setClock x).settings k = s.settings k := rfl
@[simp] theorem State.setReader_settings (s : State) (x : Reader) (k : Chan) : (s.setReader x).settings k = s.settings k := rfl
@[simp] theorem State.setPlanner_settings (s : State) (x : Planner) (k : Chan) : (s.setPlanner x).settings k = s.settings k := rfl
@[simp] theorem State.setConfirm_settings (s : State) (x : List ConfirmRecord) (k : Chan) : (s.setConfirm x).settings k = s.settings k := rfl
@[simp] theorem State.setRotor_settings (s : State) (x : Rotor) (k : Chan) : (s.setRotor x).settings k = s.settings k := rfl
@[simp] theorem State.setRail_settings (s : State) (x : Rail) (k : Chan) : (s.setRail x).settings k = s.settings k := rfl
@[simp] theorem State.setAttention_settings (s : State) (x : Attention) (k : Chan) : (s.setAttention x).settings k = s.settings k := rfl
@[simp] theorem State.setHandler_settings (s : State) (x : Handler) (k : Chan) : (s.setHandler x).settings k = s.settings k := rfl
@[simp] theorem State.raise_settings (s : State) (x : Source) (d : Nat) (k : Chan) : (s.raise x d).settings k = s.settings k := rfl
@[simp] theorem State.clearItem_settings (s : State) (x : Source) (k : Chan) : (s.clearItem x).settings k = s.settings k := rfl
@[simp] theorem State.advance_channel (s : State) (u : Nat) (k : Chan) : (s.advance u).channel k = s.channel k := rfl
@[simp] theorem State.setInput_channel (s : State) (i : Chan) (x : SensorInput) (k : Chan) : (s.setInput i x).channel k = s.channel k := rfl
@[simp] theorem State.setDamper_channel (s : State) (c : Chan) (x : Damper) (k : Chan) : (s.setDamper c x).channel k = s.channel k := rfl
@[simp] theorem State.setPeer_channel (s : State) (n : StationNo) (x : Option RosterEntry) (k : Chan) : (s.setPeer n x).channel k = s.channel k := rfl
@[simp] theorem State.setStation_channel (s : State) (x : Station) (k : Chan) : (s.setStation x).channel k = s.channel k := rfl
@[simp] theorem State.setPort_channel (s : State) (x : Port) (k : Chan) : (s.setPort x).channel k = s.channel k := rfl
@[simp] theorem State.setClock_channel (s : State) (x : Clock) (k : Chan) : (s.setClock x).channel k = s.channel k := rfl
@[simp] theorem State.setReader_channel (s : State) (x : Reader) (k : Chan) : (s.setReader x).channel k = s.channel k := rfl
@[simp] theorem State.setPlanner_channel (s : State) (x : Planner) (k : Chan) : (s.setPlanner x).channel k = s.channel k := rfl
@[simp] theorem State.setConfirm_channel (s : State) (x : List ConfirmRecord) (k : Chan) : (s.setConfirm x).channel k = s.channel k := rfl
@[simp] theorem State.setRotor_channel (s : State) (x : Rotor) (k : Chan) : (s.setRotor x).channel k = s.channel k := rfl
@[simp] theorem State.setRail_channel (s : State) (x : Rail) (k : Chan) : (s.setRail x).channel k = s.channel k := rfl
@[simp] theorem State.setAttention_channel (s : State) (x : Attention) (k : Chan) : (s.setAttention x).channel k = s.channel k := rfl
@[simp] theorem State.setHandler_channel (s : State) (x : Handler) (k : Chan) : (s.setHandler x).channel k = s.channel k := rfl
@[simp] theorem State.raise_channel (s : State) (x : Source) (d : Nat) (k : Chan) : (s.raise x d).channel k = s.channel k := rfl
@[simp] theorem State.clearItem_channel (s : State) (x : Source) (k : Chan) : (s.clearItem x).channel k = s.channel k := rfl
@[simp] theorem State.advance_input (s : State) (u : Nat) (k : Chan) : (s.advance u).input k = s.input k := rfl
@[simp] theorem State.setChannel_input (s : State) (c : Chan) (x : Channel) (k : Chan) : (s.setChannel c x).input k = s.input k := rfl
@[simp] theorem State.setDamper_input (s : State) (c : Chan) (x : Damper) (k : Chan) : (s.setDamper c x).input k = s.input k := rfl
@[simp] theorem State.setPeer_input (s : State) (n : StationNo) (x : Option RosterEntry) (k : Chan) : (s.setPeer n x).input k = s.input k := rfl
@[simp] theorem State.setStation_input (s : State) (x : Station) (k : Chan) : (s.setStation x).input k = s.input k := rfl
@[simp] theorem State.setPort_input (s : State) (x : Port) (k : Chan) : (s.setPort x).input k = s.input k := rfl
@[simp] theorem State.setClock_input (s : State) (x : Clock) (k : Chan) : (s.setClock x).input k = s.input k := rfl
@[simp] theorem State.setReader_input (s : State) (x : Reader) (k : Chan) : (s.setReader x).input k = s.input k := rfl
@[simp] theorem State.setPlanner_input (s : State) (x : Planner) (k : Chan) : (s.setPlanner x).input k = s.input k := rfl
@[simp] theorem State.setConfirm_input (s : State) (x : List ConfirmRecord) (k : Chan) : (s.setConfirm x).input k = s.input k := rfl
@[simp] theorem State.setRotor_input (s : State) (x : Rotor) (k : Chan) : (s.setRotor x).input k = s.input k := rfl
@[simp] theorem State.setRail_input (s : State) (x : Rail) (k : Chan) : (s.setRail x).input k = s.input k := rfl
@[simp] theorem State.setAttention_input (s : State) (x : Attention) (k : Chan) : (s.setAttention x).input k = s.input k := rfl
@[simp] theorem State.setHandler_input (s : State) (x : Handler) (k : Chan) : (s.setHandler x).input k = s.input k := rfl
@[simp] theorem State.raise_input (s : State) (x : Source) (d : Nat) (k : Chan) : (s.raise x d).input k = s.input k := rfl
@[simp] theorem State.clearItem_input (s : State) (x : Source) (k : Chan) : (s.clearItem x).input k = s.input k := rfl
@[simp] theorem State.advance_damper (s : State) (u : Nat) (k : Chan) : (s.advance u).damper k = s.damper k := rfl
@[simp] theorem State.setChannel_damper (s : State) (c : Chan) (x : Channel) (k : Chan) : (s.setChannel c x).damper k = s.damper k := rfl
@[simp] theorem State.setInput_damper (s : State) (i : Chan) (x : SensorInput) (k : Chan) : (s.setInput i x).damper k = s.damper k := rfl
@[simp] theorem State.setPeer_damper (s : State) (n : StationNo) (x : Option RosterEntry) (k : Chan) : (s.setPeer n x).damper k = s.damper k := rfl
@[simp] theorem State.setStation_damper (s : State) (x : Station) (k : Chan) : (s.setStation x).damper k = s.damper k := rfl
@[simp] theorem State.setPort_damper (s : State) (x : Port) (k : Chan) : (s.setPort x).damper k = s.damper k := rfl
@[simp] theorem State.setClock_damper (s : State) (x : Clock) (k : Chan) : (s.setClock x).damper k = s.damper k := rfl
@[simp] theorem State.setReader_damper (s : State) (x : Reader) (k : Chan) : (s.setReader x).damper k = s.damper k := rfl
@[simp] theorem State.setPlanner_damper (s : State) (x : Planner) (k : Chan) : (s.setPlanner x).damper k = s.damper k := rfl
@[simp] theorem State.setConfirm_damper (s : State) (x : List ConfirmRecord) (k : Chan) : (s.setConfirm x).damper k = s.damper k := rfl
@[simp] theorem State.setRotor_damper (s : State) (x : Rotor) (k : Chan) : (s.setRotor x).damper k = s.damper k := rfl
@[simp] theorem State.setRail_damper (s : State) (x : Rail) (k : Chan) : (s.setRail x).damper k = s.damper k := rfl
@[simp] theorem State.setAttention_damper (s : State) (x : Attention) (k : Chan) : (s.setAttention x).damper k = s.damper k := rfl
@[simp] theorem State.setHandler_damper (s : State) (x : Handler) (k : Chan) : (s.setHandler x).damper k = s.damper k := rfl
@[simp] theorem State.raise_damper (s : State) (x : Source) (d : Nat) (k : Chan) : (s.raise x d).damper k = s.damper k := rfl
@[simp] theorem State.clearItem_damper (s : State) (x : Source) (k : Chan) : (s.clearItem x).damper k = s.damper k := rfl
@[simp] theorem State.advance_peer (s : State) (u : Nat) (k : StationNo) : (s.advance u).peer k = s.peer k := rfl
@[simp] theorem State.setChannel_peer (s : State) (c : Chan) (x : Channel) (k : StationNo) : (s.setChannel c x).peer k = s.peer k := rfl
@[simp] theorem State.setInput_peer (s : State) (i : Chan) (x : SensorInput) (k : StationNo) : (s.setInput i x).peer k = s.peer k := rfl
@[simp] theorem State.setDamper_peer (s : State) (c : Chan) (x : Damper) (k : StationNo) : (s.setDamper c x).peer k = s.peer k := rfl
@[simp] theorem State.setStation_peer (s : State) (x : Station) (k : StationNo) : (s.setStation x).peer k = s.peer k := rfl
@[simp] theorem State.setPort_peer (s : State) (x : Port) (k : StationNo) : (s.setPort x).peer k = s.peer k := rfl
@[simp] theorem State.setClock_peer (s : State) (x : Clock) (k : StationNo) : (s.setClock x).peer k = s.peer k := rfl
@[simp] theorem State.setReader_peer (s : State) (x : Reader) (k : StationNo) : (s.setReader x).peer k = s.peer k := rfl
@[simp] theorem State.setPlanner_peer (s : State) (x : Planner) (k : StationNo) : (s.setPlanner x).peer k = s.peer k := rfl
@[simp] theorem State.setConfirm_peer (s : State) (x : List ConfirmRecord) (k : StationNo) : (s.setConfirm x).peer k = s.peer k := rfl
@[simp] theorem State.setRotor_peer (s : State) (x : Rotor) (k : StationNo) : (s.setRotor x).peer k = s.peer k := rfl
@[simp] theorem State.setRail_peer (s : State) (x : Rail) (k : StationNo) : (s.setRail x).peer k = s.peer k := rfl
@[simp] theorem State.setAttention_peer (s : State) (x : Attention) (k : StationNo) : (s.setAttention x).peer k = s.peer k := rfl
@[simp] theorem State.setHandler_peer (s : State) (x : Handler) (k : StationNo) : (s.setHandler x).peer k = s.peer k := rfl
@[simp] theorem State.raise_peer (s : State) (x : Source) (d : Nat) (k : StationNo) : (s.raise x d).peer k = s.peer k := rfl
@[simp] theorem State.clearItem_peer (s : State) (x : Source) (k : StationNo) : (s.clearItem x).peer k = s.peer k := rfl
@[simp] theorem State.advance_item (s : State) (u : Nat) (k : Source) : (s.advance u).item k = s.item k := rfl
@[simp] theorem State.setChannel_item (s : State) (c : Chan) (x : Channel) (k : Source) : (s.setChannel c x).item k = s.item k := rfl
@[simp] theorem State.setInput_item (s : State) (i : Chan) (x : SensorInput) (k : Source) : (s.setInput i x).item k = s.item k := rfl
@[simp] theorem State.setDamper_item (s : State) (c : Chan) (x : Damper) (k : Source) : (s.setDamper c x).item k = s.item k := rfl
@[simp] theorem State.setPeer_item (s : State) (n : StationNo) (x : Option RosterEntry) (k : Source) : (s.setPeer n x).item k = s.item k := rfl
@[simp] theorem State.setStation_item (s : State) (x : Station) (k : Source) : (s.setStation x).item k = s.item k := rfl
@[simp] theorem State.setPort_item (s : State) (x : Port) (k : Source) : (s.setPort x).item k = s.item k := rfl
@[simp] theorem State.setClock_item (s : State) (x : Clock) (k : Source) : (s.setClock x).item k = s.item k := rfl
@[simp] theorem State.setReader_item (s : State) (x : Reader) (k : Source) : (s.setReader x).item k = s.item k := rfl
@[simp] theorem State.setPlanner_item (s : State) (x : Planner) (k : Source) : (s.setPlanner x).item k = s.item k := rfl
@[simp] theorem State.setConfirm_item (s : State) (x : List ConfirmRecord) (k : Source) : (s.setConfirm x).item k = s.item k := rfl
@[simp] theorem State.setRotor_item (s : State) (x : Rotor) (k : Source) : (s.setRotor x).item k = s.item k := rfl
@[simp] theorem State.setRail_item (s : State) (x : Rail) (k : Source) : (s.setRail x).item k = s.item k := rfl
@[simp] theorem State.setHandler_item (s : State) (x : Handler) (k : Source) : (s.setHandler x).item k = s.item k := rfl

/-! ### Records read after they were set -/

theorem State.setChannel_channel (s : State) (k j : Chan) (x : Channel) :
    (s.setChannel k x).channel j = if k = j then x else s.channel j := by
  simp only [State.setChannel, State.channel, Fin.getElem_fin, Vector.getElem_set, Fin.ext_iff]

@[simp] theorem State.setChannel_channel_self (s : State) (k : Chan) (x : Channel) : (s.setChannel k x).channel k = x := by
  rw [State.setChannel_channel, if_pos rfl]

theorem State.setInput_input (s : State) (k j : Chan) (x : SensorInput) :
    (s.setInput k x).input j = if k = j then x else s.input j := by
  simp only [State.setInput, State.input, Fin.getElem_fin, Vector.getElem_set, Fin.ext_iff]

@[simp] theorem State.setInput_input_self (s : State) (k : Chan) (x : SensorInput) : (s.setInput k x).input k = x := by
  rw [State.setInput_input, if_pos rfl]

theorem State.setDamper_damper (s : State) (k j : Chan) (x : Damper) :
    (s.setDamper k x).damper j = if k = j then x else s.damper j := by
  simp only [State.setDamper, State.damper, Fin.getElem_fin, Vector.getElem_set, Fin.ext_iff]

@[simp] theorem State.setDamper_damper_self (s : State) (k : Chan) (x : Damper) : (s.setDamper k x).damper k = x := by
  rw [State.setDamper_damper, if_pos rfl]

theorem State.setPeer_peer (s : State) (k j : StationNo) (x : Option RosterEntry) :
    (s.setPeer k x).peer j = if k = j then x else s.peer j := by
  simp only [State.setPeer, State.peer, Fin.getElem_fin, Vector.getElem_set, Fin.ext_iff]

@[simp] theorem State.setPeer_peer_self (s : State) (k : StationNo) (x : Option RosterEntry) : (s.setPeer k x).peer k = x := by
  rw [State.setPeer_peer, if_pos rfl]

theorem State.raise_item (s : State) (x y : Source) (d : Nat) :
    (s.raise x d).item y = if x = y then some (raisedItem (s.item x) d s.now) else s.item y := by
  simp only [State.raise, State.item, Fin.getElem_fin, Vector.getElem_set, Fin.ext_iff]

@[simp] theorem State.raise_item_self (s : State) (x : Source) (d : Nat) :
    (s.raise x d).item x = some (raisedItem (s.item x) d s.now) := by
  rw [State.raise_item, if_pos rfl]

theorem State.clearItem_item (s : State) (x y : Source) :
    (s.clearItem x).item y = if x = y then none else s.item y := by
  simp only [State.clearItem, State.item, Fin.getElem_fin, Vector.getElem_set, Fin.ext_iff]

end Sys2Proof.Machine
end

