-- ==== Sys2Proof/Laws/Frame.lean ====
section
/-! SUPPORT. The calculus of frames: `State.changesOnly fs s t` composes, and each named update changes its own field alone. -/

set_option Elab.async false

namespace Sys2Proof.Machine

variable {fs gs : List Field} {s t u : State}

theorem changes_refl (fs : List Field) (s : State) : s.changesOnly fs s := by
  intro k _; cases k <;> rfl

theorem agrees_trans {k : Field} (h : s.agrees t k) (g : t.agrees u k) : s.agrees u k := by
  cases k <;> exact Eq.trans g h

theorem changes_widen (h : s.changesOnly gs t) (hs : gs ⊆ fs := by decide) : s.changesOnly fs t :=
  fun k hk => h k fun hg => hk (hs hg)

/-- Two changes in a row, the second within the footprint. -/
theorem changes_then (h : s.changesOnly fs t) (g : t.changesOnly gs u) (hs : gs ⊆ fs := by decide) :
    s.changesOnly fs u :=
  fun k hk => agrees_trans (h k hk) (g k fun hg => hk (hs hg))

theorem changes_foldl {α : Type} (f : State → α → State) (h : ∀ (s : State) (x : α), s.changesOnly fs (f s x)) (xs : List α) (s : State) :
    s.changesOnly fs (xs.foldl f s) := by
  induction xs generalizing s with
  | nil => exact changes_refl fs s
  | cons x xs ih => exact changes_then (h s x) (ih (f s x)) (List.Subset.refl fs)

theorem changes_ite {c : Prop} [Decidable c] (h : c → s.changesOnly fs t) (g : ¬c → s.changesOnly fs u) :
    s.changesOnly fs (if c then t else u) := by
  split
  · exact h ‹_›
  · exact g ‹_›

theorem changes_onlyIf (b : Bool) (f : State → State) (h : b = true → s.changesOnly fs (f s)) :
    s.changesOnly fs (s.onlyIf b f) := by
  unfold State.onlyIf
  exact changes_ite h fun _ => changes_refl fs s

/-- A state that may be there. -/
theorem changes_getD {o : Option State} (h : ∀ t, o = some t → s.changesOnly fs t) (g : s.changesOnly fs u) :
    s.changesOnly fs (o.getD u) := by
  cases o with
  | none => exact g
  | some t => exact h t rfl

/-! ### What a frame says of one field -/

theorem changes_now (h : s.changesOnly fs t) (hk : Field.now ∉ fs := by decide) : t.now = s.now := h .now hk
theorem changes_pending (h : s.changesOnly fs t) (hk : Field.pending ∉ fs := by decide) : t.pending = s.pending := h .pending hk
theorem changes_resetNLow (h : s.changesOnly fs t) (hk : Field.resetNLow ∉ fs := by decide) : t.resetNLow = s.resetNLow := h .resetNLow hk
theorem changes_supply (h : s.changesOnly fs t) (hk : Field.supply ∉ fs := by decide) : t.supply = s.supply := h .supply hk
theorem changes_powered (h : s.changesOnly fs t) (hk : Field.powered ∉ fs := by decide) : t.powered = s.powered := h .powered hk
theorem changes_straps (h : s.changesOnly fs t) (hk : Field.straps ∉ fs := by decide) : t.straps = s.straps := h .straps hk
theorem changes_station (h : s.changesOnly fs t) (hk : Field.station ∉ fs := by decide) : t.station = s.station := h .station hk
theorem changes_roster (h : s.changesOnly fs t) (hk : Field.roster ∉ fs := by decide) : t.roster = s.roster := h .roster hk
theorem changes_port (h : s.changesOnly fs t) (hk : Field.port ∉ fs := by decide) : t.port = s.port := h .port hk
theorem changes_clock (h : s.changesOnly fs t) (hk : Field.clock ∉ fs := by decide) : t.clock = s.clock := h .clock hk
theorem changes_reader (h : s.changesOnly fs t) (hk : Field.reader ∉ fs := by decide) : t.reader = s.reader := h .reader hk
theorem changes_planner (h : s.changesOnly fs t) (hk : Field.planner ∉ fs := by decide) : t.planner = s.planner := h .planner hk
theorem changes_channels (h : s.changesOnly fs t) (hk : Field.channels ∉ fs := by decide) : t.channels = s.channels := h .channels hk
theorem changes_inputs (h : s.changesOnly fs t) (hk : Field.inputs ∉ fs := by decide) : t.inputs = s.inputs := h .inputs hk
theorem changes_confirm (h : s.changesOnly fs t) (hk : Field.confirm ∉ fs := by decide) : t.confirm = s.confirm := h .confirm hk
theorem changes_dampers (h : s.changesOnly fs t) (hk : Field.dampers ∉ fs := by decide) : t.dampers = s.dampers := h .dampers hk
theorem changes_rotor (h : s.changesOnly fs t) (hk : Field.rotor ∉ fs := by decide) : t.rotor = s.rotor := h .rotor hk
theorem changes_rail (h : s.changesOnly fs t) (hk : Field.rail ∉ fs := by decide) : t.rail = s.rail := h .rail hk
theorem changes_attention (h : s.changesOnly fs t) (hk : Field.attention ∉ fs := by decide) : t.attention = s.attention := h .attention hk
theorem changes_handler (h : s.changesOnly fs t) (hk : Field.handler ∉ fs := by decide) : t.handler = s.handler := h .handler hk
theorem changes_store (h : s.changesOnly fs t) (hk : Field.store ∉ fs := by decide) : t.store = s.store := h .store hk
theorem changes_options (h : s.changesOnly fs t) (hk : Field.options ∉ fs := by decide) : t.options = s.options := h .options hk
theorem changes_parts (h : s.changesOnly fs t) (hk : Field.parts ∉ fs := by decide) : t.parts = s.parts := h .parts hk
theorem changes_freeCount (h : s.changesOnly fs t) (hk : Field.freeCount ∉ fs := by decide) : t.freeCount = s.freeCount := h .freeCount hk

theorem changes_sameBytes (h : s.changesOnly fs t) (hk : Field.store ∉ fs := by decide) : s.sameBytes t :=
  fun a => by rw [changes_store h hk]

theorem changes_held (h : s.changesOnly fs t) (h1 : Field.resetNLow ∉ fs := by decide) (h2 : Field.supply ∉ fs := by decide) :
    t.held = s.held := by
  simp only [State.held, changes_resetNLow h h1, changes_supply h h2]

theorem changes_settings (h : s.changesOnly fs t) (hk : Field.options ∉ fs := by decide) (c : Chan) :
    t.settings c = s.settings c := by
  simp only [State.settings, changes_options h hk]

theorem changes_channel (h : s.changesOnly fs t) (hk : Field.channels ∉ fs := by decide) (c : Chan) :
    t.channel c = s.channel c := by
  simp only [State.channel, changes_channels h hk]

theorem changes_input (h : s.changesOnly fs t) (hk : Field.inputs ∉ fs := by decide) (c : Chan) :
    t.input c = s.input c := by
  simp only [State.input, changes_inputs h hk]

theorem changes_damper (h : s.changesOnly fs t) (hk : Field.dampers ∉ fs := by decide) (c : Chan) :
    t.damper c = s.damper c := by
  simp only [State.damper, changes_dampers h hk]

theorem changes_peer (h : s.changesOnly fs t) (hk : Field.roster ∉ fs := by decide) (n : StationNo) :
    t.peer n = s.peer n := by
  simp only [State.peer, changes_roster h hk]

theorem changes_item (h : s.changesOnly fs t) (hk : Field.attention ∉ fs := by decide) (x : Source) :
    t.item x = s.item x := by
  simp only [State.item, changes_attention h hk]

/-! ### The named updates -/

theorem advance_changes (s : State) (u : Nat) : s.changesOnly [.now] (s.advance u) := by
  intro k hk; cases k <;> first | rfl | exact absurd (List.mem_singleton.2 rfl) hk

theorem setChannel_changes (s : State) (c : Chan) (x : Channel) : s.changesOnly [.channels] (s.setChannel c x) := by
  intro k hk; cases k <;> first | rfl | exact absurd (List.mem_singleton.2 rfl) hk

theorem setInput_changes (s : State) (i : Chan) (x : SensorInput) : s.changesOnly [.inputs] (s.setInput i x) := by
  intro k hk; cases k <;> first | rfl | exact absurd (List.mem_singleton.2 rfl) hk

theorem setDamper_changes (s : State) (c : Chan) (x : Damper) : s.changesOnly [.dampers] (s.setDamper c x) := by
  intro k hk; cases k <;> first | rfl | exact absurd (List.mem_singleton.2 rfl) hk

theorem setPeer_changes (s : State) (n : StationNo) (x : Option RosterEntry) : s.changesOnly [.roster] (s.setPeer n x) := by
  intro k hk; cases k <;> first | rfl | exact absurd (List.mem_singleton.2 rfl) hk

theorem setStation_changes (s : State) (x : Station) : s.changesOnly [.station] (s.setStation x) := by
  intro k hk; cases k <;> first | rfl | exact absurd (List.mem_singleton.2 rfl) hk

theorem setPort_changes (s : State) (x : Port) : s.changesOnly [.port] (s.setPort x) := by
  intro k hk; cases k <;> first | rfl | exact absurd (List.mem_singleton.2 rfl) hk

theorem setClock_changes (s : State) (x : Clock) : s.changesOnly [.clock] (s.setClock x) := by
  intro k hk; cases k <;> first | rfl | exact absurd (List.mem_singleton.2 rfl) hk

theorem setReader_changes (s : State) (x : Reader) : s.changesOnly [.reader] (s.setReader x) := by
  intro k hk; cases k <;> first | rfl | exact absurd (List.mem_singleton.2 rfl) hk

theorem setPlanner_changes (s : State) (x : Planner) : s.changesOnly [.planner] (s.setPlanner x) := by
  intro k hk; cases k <;> first | rfl | exact absurd (List.mem_singleton.2 rfl) hk

theorem setConfirm_changes (s : State) (x : List ConfirmRecord) : s.changesOnly [.confirm] (s.setConfirm x) := by
  intro k hk; cases k <;> first | rfl | exact absurd (List.mem_singleton.2 rfl) hk

theorem setRotor_changes (s : State) (x : Rotor) : s.changesOnly [.rotor] (s.setRotor x) := by
  intro k hk; cases k <;> first | rfl | exact absurd (List.mem_singleton.2 rfl) hk

theorem setRail_changes (s : State) (x : Rail) : s.changesOnly [.rail] (s.setRail x) := by
  intro k hk; cases k <;> first | rfl | exact absurd (List.mem_singleton.2 rfl) hk

theorem setAttention_changes (s : State) (x : Attention) : s.changesOnly [.attention] (s.setAttention x) := by
  intro k hk; cases k <;> first | rfl | exact absurd (List.mem_singleton.2 rfl) hk

theorem setHandler_changes (s : State) (x : Handler) : s.changesOnly [.handler] (s.setHandler x) := by
  intro k hk; cases k <;> first | rfl | exact absurd (List.mem_singleton.2 rfl) hk

theorem raise_changes (s : State) (x : Source) (d : Nat) : s.changesOnly [.attention] (s.raise x d) := by
  intro k hk; cases k <;> first | rfl | exact absurd (List.mem_singleton.2 rfl) hk

theorem clearItem_changes (s : State) (x : Source) : s.changesOnly [.attention] (s.clearItem x) := by
  intro k hk; cases k <;> first | rfl | exact absurd (List.mem_singleton.2 rfl) hk

end Sys2Proof.Machine
end

