-- ==== Sys2Proof/Laws/Footprints.lean ====
section
/-! SUPPORT. One lemma per shared operation: the fields it may change. -/

set_option Elab.async false

namespace Sys2Proof.Machine

/-- What arming and dropping reach. -/
abbrev armFields : List Field := [.planner, .channels, .attention]
/-- What a pulse's end reaches. -/
abbrev pulseFields : List Field := [.channels, .inputs, .attention, .confirm]
/-- What a grant reaches. -/
abbrev grantFields : List Field := [.planner, .channels, .inputs, .attention, .confirm, .dampers]
/-- What the slots of a movement of dampers reach. -/
abbrev slotFields : List Field := [.planner, .channels, .inputs, .attention, .confirm, .dampers, .reader]
/-- What the clean-up of R7 and the END report reach. -/
abbrev cleanFields : List Field :=
  [.planner, .channels, .inputs, .attention, .confirm, .dampers, .reader, .rotor, .clock, .station, .port]
/-- What any command may reach while the part is awake: everything but the pins, the supply, the queue of commands, the store and the settings. -/
abbrev playFields : List Field :=
  [.station, .roster, .port, .clock, .reader, .planner, .channels, .inputs, .confirm, .dampers, .rotor, .attention,
   .handler]

/-! ### The clock -/

theorem takeBoundaryEvents_changes (s : State) : s.changesOnly [.clock, .reader] s.takeBoundaryEvents := by
  intro k hk; cases k <;> first | (exfalso; apply hk; decide) | rfl

theorem consumeOffsets_changes (s : State) : s.changesOnly [.roster] s.consumeOffsets := by
  intro k hk; cases k <;> first | (exfalso; apply hk; decide) | rfl

theorem followUpdate_changes (s : State) (l : Int) : s.changesOnly [.clock, .roster] (s.followUpdate l) := by
  unfold State.followUpdate
  intro k hk; cases k <;> first | (exfalso; apply hk; decide) | rfl

/-! ### The transmit queue -/

theorem offer_changes (s : State) (f : TxFrame) : s.changesOnly [.port, .attention, .handler] (s.offer f) := by
  intro k hk; cases k <;> first | (exfalso; apply hk; decide) | rfl

theorem withdraw_changes (s : State) (p : TxFrame → Bool) : s.changesOnly [.port, .attention] (s.withdraw p) := by
  intro k hk; cases k <;> first | (exfalso; apply hk; decide) | rfl

theorem offerReport_changes (s : State) : s.changesOnly [.port, .attention, .handler] s.offerReport := by
  unfold State.offerReport
  refine changes_ite (fun _ => changes_refl _ s) fun _ => ?_
  split
  · exact offer_changes s _
  · exact changes_refl _ s

theorem lineQuiet_changes (s : State) : s.changesOnly [.port] s.lineQuiet := by
  intro k hk; cases k <;> first | (exfalso; apply hk; decide) | rfl

/-! ### The hit monitor -/

theorem confirmed_changes (s : State) (r : ConfirmRecord) (e : Option Int) :
    s.changesOnly [.channels, .inputs] (s.confirmed r e) :=
  changes_then (changes_widen (setChannel_changes s _ _)) (setInput_changes _ _ _)

theorem missed_changes (s : State) (r : ConfirmRecord) : s.changesOnly [.channels, .attention] (s.missed r) := by
  unfold State.missed
  have h : s.changesOnly [.channels, .attention]
      ((s.setChannel r.channel (s.channel r.channel).miss).raise srcMiss r.channel.val) :=
    changes_then (changes_widen (setChannel_changes s _ _)) (raise_changes _ _ _)
  exact changes_ite (fun _ => changes_then h (raise_changes _ _ _)) fun _ => h

theorem edgeMatch_changes (s : State) (r : ConfirmRecord) (l : Latch) :
    s.changesOnly [.channels, .inputs] (s.edgeMatch r l) :=
  changes_then (changes_widen (setInput_changes s _ _)) (confirmed_changes _ _ _)

theorem windowMatch_changes (s : State) (r : ConfirmRecord) (t : State) (h : s.windowMatch r = some t) :
    s.changesOnly [.channels, .inputs] t := by
  unfold State.windowMatch at h
  split at h
  · split at h
    · exact Option.some.inj h ▸ edgeMatch_changes s r _
    · split at h
      · exact Option.some.inj h ▸ confirmed_changes s r none
      · cases h
  · cases h

theorem placeOpen_changes (s : State) (r : ConfirmRecord) : s.changesOnly pulseFields (s.placeOpen r) := by
  unfold State.placeOpen
  split
  · exact changes_widen (windowMatch_changes s r _ ‹_›)
  · exact changes_ite (fun _ => changes_widen (missed_changes s r)) fun _ => changes_widen (setConfirm_changes s _)

theorem placeRecord_changes (s : State) (r : ConfirmRecord) : s.changesOnly pulseFields (s.placeRecord r) := by
  unfold State.placeRecord
  refine changes_ite (fun _ => changes_ite (fun _ => placeOpen_changes s r) fun _ => changes_widen (setConfirm_changes s _))
    fun _ => ?_
  split
  · exact changes_refl _ s
  · refine changes_ite (fun _ => changes_widen (missed_changes s r)) fun _ => ?_
    rename_i x xs _ _
    have h : s.changesOnly pulseFields ((s.setConfirm xs).missed x) :=
      changes_then (changes_widen (setConfirm_changes s _)) (missed_changes _ _)
    exact changes_ite (fun _ => changes_then h (placeOpen_changes _ r)) fun _ => changes_then h (setConfirm_changes _ _)

theorem abandonAll_changes (s : State) : s.changesOnly [.inputs, .confirm] s.abandonAll := by
  intro k hk; cases k <;> first | (exfalso; apply hk; decide) | rfl

theorem judgeUnmatched_changes (s : State) (i : Chan) (l : Latch) :
    s.changesOnly [.inputs, .attention] (s.judgeUnmatched i l) := by
  unfold State.judgeUnmatched
  have h := changes_widen (fs := [.inputs, .attention]) (setInput_changes s i ((s.input i).useEdge (s.inputMode i)))
  exact changes_ite (fun _ => h) fun _ => changes_then h (raise_changes _ _ _)

theorem judgeAssertion_changes (s : State) (i : Chan) (m : Time) : s.changesOnly pulseFields (s.judgeAssertion i m) := by
  unfold State.judgeAssertion
  dsimp only
  have h : s.changesOnly pulseFields (s.setInput i { s.input i with latch := some { impact := m, edgeUsed := false } }) :=
    changes_widen (setInput_changes s i _)
  split
  · exact changes_then (changes_then h (setConfirm_changes _ _)) (edgeMatch_changes _ _ _)
  · exact changes_ite (fun _ => h) fun _ => changes_then h (judgeUnmatched_changes _ _ _)

theorem endHold_changes (s : State) (i : Chan) : s.changesOnly [.inputs, .attention] (s.endHold i) := by
  unfold State.endHold
  split
  · exact changes_ite (fun _ => judgeUnmatched_changes s i _) fun _ => changes_refl _ s
  · exact changes_refl _ s

theorem endHolds_changes (s : State) : s.changesOnly [.inputs, .attention] s.endHolds :=
  changes_foldl _ endHold_changes _ s

theorem disableStuck_changes (s : State) (c : Chan) : s.changesOnly [.channels, .attention] (s.disableStuck c) :=
  changes_then (changes_widen (setChannel_changes s _ _)) (raise_changes _ _ _)

/-! ### Pulses -/

theorem finishPulse_changes (s : State) (c : Chan) (cut : Bool) : s.changesOnly pulseFields (s.finishPulse c cut) := by
  unfold State.finishPulse
  split
  · exact changes_refl _ s
  · exact changes_then (changes_widen (setChannel_changes s _ _)) (placeRecord_changes _ _)

theorem cutPulses_changes (s : State) : s.changesOnly pulseFields s.cutPulses :=
  changes_foldl _ (fun s c => finishPulse_changes s c true) _ s

theorem completeDue_changes (s : State) (c : Chan) : s.changesOnly pulseFields (s.completeDue c) := by
  unfold State.completeDue
  exact changes_then (changes_ite (fun _ => finishPulse_changes s c false) fun _ => changes_refl _ s)
    (setChannel_changes _ _ _)

/-! ### Dampers and the rotor -/

theorem addClaim_changes (s : State) (a : Claim) : s.changesOnly [.planner] (s.addClaim a) := setPlanner_changes s _

theorem removeClaim_changes (s : State) (c : Chan) : s.changesOnly [.planner] (s.removeClaim c) := setPlanner_changes s _

theorem sensedBy_changes (s : State) (i : Chan) (a : Bool) : s.changesOnly [.dampers] (s.sensedBy i a) := by
  intro k hk; cases k <;> first | (exfalso; apply hk; decide) | rfl

/-- The channel's own reaction to its new target (R122). -/
theorem setTarget_changes (s : State) (c : Chan) (raise : Bool) :
    s.changesOnly [.dampers, .planner] (s.setTarget c raise) := by
  unfold State.setTarget
  refine changes_ite (fun _ => changes_refl _ s) fun _ => ?_
  have h : s.changesOnly [.dampers, .planner] (s.setDamper c { s.damper c with targetRaised := raise }) :=
    changes_widen (setDamper_changes s c _)
  dsimp only
  split
  all_goals
    first
    | exact changes_ite (fun _ => changes_ite (fun _ => h) fun _ => changes_then h (addClaim_changes _ _)) fun _ =>
        changes_then h (removeClaim_changes _ _)
    | exact changes_ite (fun _ => h) fun _ => changes_then h (setDamper_changes _ _ _)

theorem lowerAll_changes (s : State) : s.changesOnly [.dampers, .planner] s.lowerAll :=
  changes_foldl _ (fun s c => setTarget_changes s c false) _ s

theorem cutDamper_changes (s : State) (c : Chan) : s.changesOnly [.dampers, .planner] (s.cutDamper c) := by
  unfold State.cutDamper
  have h := changes_widen (fs := [.dampers, .planner]) (setDamper_changes s c (s.damper c).cut)
  exact changes_ite (fun _ => changes_then h (addClaim_changes _ _)) fun _ => h

theorem cutDampers_changes (s : State) : s.changesOnly [.dampers, .planner] s.cutDampers :=
  changes_foldl _ cutDamper_changes _ s

theorem consumeDamp_changes (s : State) (k : Nat) (c : Chan) : s.changesOnly [.reader] (s.consumeDamp k c) :=
  setReader_changes s _

theorem applyDamp_changes (s : State) (c : Chan) : s.changesOnly [.reader, .dampers, .planner] (s.applyDamp c) := by
  unfold State.applyDamp
  split
  · exact changes_refl _ s
  · exact changes_then (changes_widen (consumeDamp_changes s _ c)) (setTarget_changes _ c _)

theorem dampNow_changes (s : State) (raise : Bool) (cs : BitVec 24) :
    s.changesOnly [.dampers, .planner] (s.dampNow raise cs) :=
  changes_foldl _ (fun s c => setTarget_changes s c raise) _ s

theorem takeRotorEvents_changes (s : State) : s.changesOnly [.rotor, .reader] s.takeRotorEvents := by
  intro k hk; cases k <;> first | (exfalso; apply hk; decide) | rfl

theorem rotorBoundary_changes (s : State) (count : Nat) :
    s.changesOnly [.rotor, .reader, .attention] (s.rotorBoundary count) := by
  unfold State.rotorBoundary
  have h : ∀ r, s.changesOnly [.rotor, .reader, .attention] (s.takeRotorEvents.setRotor r) := fun r =>
    changes_then (changes_widen (takeRotorEvents_changes s)) (setRotor_changes _ r)
  exact changes_ite (fun _ => changes_then (h _) (raise_changes _ _ _)) fun _ => h _

theorem stopRotor_changes (s : State) : s.changesOnly [.rotor] s.stopRotor := setRotor_changes s _

/-! ### Strikes -/

theorem setEntry_changes (s : State) (e : StrikeEntry) : s.changesOnly [.planner] (s.setEntry e) := setPlanner_changes s _

theorem removeEntry_changes (s : State) (e : StrikeEntry) : s.changesOnly [.planner] (s.removeEntry e) :=
  setPlanner_changes s _

theorem projectAll_changes (s : State) : s.changesOnly [.planner] s.projectAll := setPlanner_changes s _

theorem dropEntry_changes (s : State) (e : StrikeEntry) (c : Chan) (x : Source) (d : Nat) :
    s.changesOnly armFields (s.dropEntry e c x d) :=
  changes_then (changes_then (changes_widen (removeEntry_changes s e)) (setChannel_changes _ _ _)) (raise_changes _ _ _)

theorem armEntry_changes (s : State) (e : StrikeEntry) : s.changesOnly armFields (s.armEntry e) := by
  unfold State.armEntry
  split
  · exact dropEntry_changes s e _ _ _
  · exact changes_widen (setEntry_changes s _)
  · rename_i c w f _
    refine changes_ite (fun _ => dropEntry_changes s e _ _ _) fun _ => ?_
    have h : s.changesOnly armFields (s.setEntry (s.armedEntry e c w f)) := changes_widen (setEntry_changes s _)
    exact changes_ite (fun _ => changes_then h (raise_changes _ _ _)) fun _ => h

theorem armIfDue_changes (s : State) (e : StrikeEntry) : s.changesOnly armFields (s.armIfDue e) := by
  unfold State.armIfDue
  split
  · exact changes_ite (fun _ => armEntry_changes s _) fun _ => changes_refl _ s
  · exact changes_refl _ s

theorem armAllDue_changes (s : State) : s.changesOnly armFields s.armAllDue := changes_foldl _ armIfDue_changes _ s

theorem armFirstDue_changes (s : State) : s.changesOnly armFields s.armFirstDue := by
  unfold State.armFirstDue
  split
  · exact armEntry_changes s _
  · exact changes_refl _ s

theorem armReleased_changes (s : State) (e : StrikeEntry) : s.changesOnly armFields (s.armReleased e) := by
  unfold State.armReleased
  split
  · exact changes_ite (fun _ => armEntry_changes s _) fun _ => changes_refl _ s
  · exact changes_refl _ s

theorem releaseDeferred_changes (s : State) (cs : List Chan) : s.changesOnly armFields (s.releaseDeferred cs) :=
  changes_then (changes_widen (setPlanner_changes s _)) (changes_foldl _
    (fun s e => changes_ite (fun _ => armReleased_changes s e) fun _ => armIfDue_changes s e) _ _)

theorem armInOrder_changes (s : State) (e : StrikeEntry) : s.changesOnly armFields (s.armInOrder e) :=
  changes_ite (fun _ => changes_foldl _ armIfDue_changes _ s) fun _ => changes_refl _ s

/-- Up to the last entry picked there is nothing where none is picked. -/
theorem upToLast_of_none (p : StrikeEntry → Bool) (xs : List StrikeEntry) (h : ∀ x ∈ xs, p x = false) : upToLast p xs = [] := by
  cases xs with
  | nil => rfl
  | cons x xs =>
    unfold upToLast
    rw [if_neg]
    simp only [Bool.or_eq_true, List.any_eq_true, not_or, not_exists, not_and]
    exact ⟨by simp [h x], fun y hy => by simp [h y (List.mem_cons_of_mem _ hy)]⟩

/-- Up to an entry, where what follows it is not picked, the queue is the part before it and the entry itself. -/
theorem upToLast_append (p : StrikeEntry → Bool) (pre post : List StrikeEntry) (y : StrikeEntry) (hy : p y = true)
    (h : ∀ x ∈ post, p x = false) : upToLast p (pre ++ y :: post) = pre ++ [y] := by
  induction pre with
  | nil => simp [upToLast, hy, upToLast_of_none p post h]
  | cons x xs ih => simp [upToLast, ih, hy]

/-- An entry that is not due leaves the part as it stands. -/
theorem armIfDue_of_not_due (s : State) (e : StrikeEntry) (h : ∀ x ∈ s.planner.queue, x.sameKey e = true → s.armDue x = false) :
    s.armIfDue e = s := by
  unfold State.armIfDue
  split
  · rename_i x hx
    unfold State.entryLike at hx
    rw [if_neg (by simp [h x (List.mem_of_find?_eq_some hx) (by simpa using List.find?_some hx)])]
  · rfl

/-- With no entry deferred on these channels nothing is released, and nothing arms (R75). -/
theorem releaseDeferred_of_none (s : State) (cs : List Chan) (h : ∀ e ∈ s.planner.queue, e.deferredOn cs = false) :
    s.releaseDeferred cs = s := by
  unfold State.releaseDeferred
  rw [upToLast_of_none _ _ fun e he => by simp [StrikeEntry.releasedOn, h e he], List.foldl_nil,
    List.map_congr_left (g := id) fun e he => by simp [h e he]]
  simp [State.setPlanner]

/-- An entry that is not due does not arm where it is put (R70, R73). -/
theorem armInOrder_of_not_due (s : State) (e : StrikeEntry) (h : s.armDue e = false) : s.armInOrder e = s := by
  unfold State.armInOrder
  rw [if_neg (by simp [h])]

theorem insertEntry_changes (s : State) (e : StrikeEntry) : s.changesOnly armFields (s.insertEntry e) := by
  unfold State.insertEntry
  split
  · exact changes_then (changes_widen (setPlanner_changes s _)) (armInOrder_changes _ _)
  · exact changes_ite (fun _ => changes_refl _ s) fun _ =>
      changes_then (changes_widen (setEntry_changes s _)) (armInOrder_changes _ _)

theorem flushStrikes_changes (s : State) : s.changesOnly [.planner] s.flushStrikes := setPlanner_changes s _

theorem holdQueue_changes (s : State) (p : Pos) : s.changesOnly armFields (s.holdQueue p) :=
  changes_then (changes_widen (setPlanner_changes s _)) (releaseDeferred_changes _ _)

/-! ### Slots -/

theorem claimStrike_changes (s : State) (c : Chan) (w : Time) : s.changesOnly [.planner] (s.claimStrike c w) :=
  changes_ite (fun _ => changes_refl _ s) fun _ => addClaim_changes s _

theorem dropArmed_changes (s : State) (e : StrikeEntry) (c : Chan) (x : Source) :
    s.changesOnly armFields (s.dropArmed e c x) :=
  changes_then (changes_then (changes_widen (removeClaim_changes s c)) (dropEntry_changes _ e c x _))
    (releaseDeferred_changes _ _)

theorem claimIfDue_changes (s : State) (e : StrikeEntry) : s.changesOnly armFields (s.claimIfDue e) := by
  unfold State.claimIfDue
  split
  · split
    · exact changes_ite (fun _ => changes_refl _ s) fun _ => changes_ite (fun _ => dropArmed_changes s _ _ _) fun _ =>
        changes_widen (claimStrike_changes s _ _)
    · exact changes_refl _ s
  · exact changes_refl _ s

theorem rechoose_changes (s : State) (e : StrikeEntry) (c : Chan) : s.changesOnly armFields (s.rechoose e c) :=
  changes_then
    (changes_then
      (changes_then (changes_then (changes_widen (removeClaim_changes s c)) (setEntry_changes _ _)) (armEntry_changes _ _))
      (claimIfDue_changes _ _))
    (releaseDeferred_changes _ _)

theorem startStrike_changes (s : State) (e : StrikeEntry) (c : Chan) (w : Time) :
    s.changesOnly grantFields (s.startStrike e c w) :=
  changes_then
    (changes_then (changes_then (changes_widen (removeEntry_changes s e)) (completeDue_changes _ c))
      (setChannel_changes _ _ _))
    (releaseDeferred_changes _ _)

theorem startDamper_changes (s : State) (c : Chan) : s.changesOnly [.dampers] (s.startDamper c) := setDamper_changes s c _

theorem grantClaim_changes (s : State) (a : Claim) : s.changesOnly grantFields (s.grantClaim a) := by
  unfold State.grantClaim
  split
  · exact changes_widen (startDamper_changes s _)
  · split
    · exact changes_refl _ s
    · split
      · exact changes_refl _ s
      · exact changes_ite (fun _ => changes_widen (dropArmed_changes s _ _ _)) fun _ =>
          changes_ite (fun _ => changes_widen (rechoose_changes s _ _)) fun _ => startStrike_changes s _ _ _

theorem dropFirstLate_changes (s : State) : s.changesOnly armFields s.dropFirstLate := by
  unfold State.dropFirstLate
  split
  · exact changes_refl _ s
  · split
    · exact dropArmed_changes s _ _ _
    · exact changes_widen (removeClaim_changes s _)

theorem joinStrike_changes (s : State) (e : StrikeEntry) : s.changesOnly armFields (s.joinStrike e) := by
  unfold State.joinStrike
  split
  · exact changes_ite (fun _ => rechoose_changes s e _) fun _ => changes_widen (claimStrike_changes s _ _)
  · exact changes_refl _ s

theorem joinDamper_changes (s : State) (c : Chan) : s.changesOnly [.reader, .dampers, .planner] (s.joinDamper c) :=
  changes_foldl _ (fun s _ => changes_ite (fun _ => applyDamp_changes s c) fun _ => changes_refl _ s) _ s

theorem joinLoop_changes (n : Nat) (s : State) : s.changesOnly armFields (State.joinLoop n s) := by
  induction n generalizing s with
  | zero => exact changes_refl _ s
  | succ n ih =>
    unfold State.joinLoop
    refine changes_ite (fun _ => changes_then (dropFirstLate_changes s) (ih _)) fun _ => ?_
    split
    · exact changes_then (joinStrike_changes s _) (ih _)
    · exact changes_refl _ s

theorem joinStrikes_changes (s : State) : s.changesOnly armFields s.joinStrikes := joinLoop_changes _ s

theorem joinsNow_armed (s : State) {e : StrikeEntry} {c : Chan} {written effective : Time}
    (h : e.phase = .armed c written effective) : s.joinsNow e = (decide (effective ≤ s.now) && !s.claimWaits c) := by
  simp only [State.joinsNow, h]

/-- With no claim late and no fire time come, the list stands as it is (R80, R82). -/
theorem joinLoop_of_none (s : State) (late : ∀ a ∈ s.planner.claims, s.claimLate a = false)
    (due : ∀ e ∈ s.planner.queue, s.joinsNow e = false) (n : Nat) : State.joinLoop n s = s := by
  cases n with
  | zero => rfl
  | succ n =>
    unfold State.joinLoop
    rw [if_neg (by simpa using late), List.find?_eq_none.2 fun e he => by simp [due e he]]

theorem joinStrikes_of_none (s : State) (late : ∀ a ∈ s.planner.claims, s.claimLate a = false)
    (due : ∀ e ∈ s.planner.queue, s.joinsNow e = false) : s.joinStrikes = s :=
  joinLoop_of_none s late due _

/-- With no raise due, no damper joins (R80). -/
theorem joinDamper_of_none (s : State) (c : Chan) (h : s.raiseDue c = false) : s.joinDamper c = s := by
  unfold State.joinDamper
  induction List.range Config.timelineDepth with
  | nil => rfl
  | cons x xs ih => rw [List.foldl_cons, if_neg (by simp [h]), ih]

theorem joinDampers_changes (s : State) : s.changesOnly [.reader, .dampers, .planner] s.joinDampers :=
  changes_foldl _ joinDamper_changes _ s

/-- The grants reach what a grant reaches, where bringing the list up to the moment reaches no more. -/
theorem grantLoop_changes {join : State → State} (hj : ∀ s : State, s.changesOnly grantFields (join s)) (n : Nat)
    (s : State) : s.changesOnly grantFields (State.grantLoop join n s) := by
  induction n generalizing s with
  | zero => exact changes_refl _ s
  | succ n ih =>
    unfold State.grantLoop
    refine changes_ite (fun _ => ?_) fun _ => changes_refl _ s
    dsimp only
    split
    · exact hj s
    · exact changes_then (changes_then (changes_then (hj s) (setPlanner_changes _ _)) (grantClaim_changes _ _)) (ih _)

theorem grantsFreed_changes (s : State) : s.changesOnly grantFields s.grantsFreed :=
  grantLoop_changes (fun s => changes_widen (fs := grantFields) (joinStrikes_changes s)) _ s

/-- With no slot grantable nothing is granted (R81, R83). -/
theorem grantLoop_of_no_slot (join : State → State) (n : Nat) (s : State) (h : s.slotGrantable = false) :
    State.grantLoop join n s = s := by
  cases n with
  | zero => rfl
  | succ n => unfold State.grantLoop; rw [if_neg (by simp [h])]

theorem slotFreed_changes (s : State) : s.changesOnly slotFields s.slotFreed :=
  changes_ite (fun _ => changes_refl _ s) fun _ =>
    changes_then (changes_widen (joinDampers_changes s)) (grantsFreed_changes _)

/-- The grants of slots that stand free reach what a grant reaches, and what bringing in the other claims does. -/
theorem grantStanding_changes {fs : List Field} {freed : State → State} (hg : grantFields ⊆ fs)
    (hf : ∀ s : State, s.changesOnly fs (freed s)) (n : Nat) (s : State) :
    s.changesOnly fs (State.grantStanding freed n s) := by
  induction n generalizing s with
  | zero => exact changes_refl _ s
  | succ n ih =>
    unfold State.grantStanding
    refine changes_ite (fun _ => ?_) fun _ => changes_refl _ s
    split
    · exact changes_refl _ s
    · rename_i a rest _
      have h : s.changesOnly grantFields ((s.setPlanner { s.planner with claims := rest }).grantClaim a) :=
        changes_then (changes_widen (setPlanner_changes s _)) (grantClaim_changes _ _)
      exact changes_ite (fun _ => changes_then (fun k hk => h k fun m => hk (hg m)) (hf _) fun _ m => m)
        fun _ => changes_then (fun k hk => h k fun m => hk (hg m)) (ih _) fun _ m => m

/-- With no slot grantable nothing is granted (R81, R83). -/
theorem grantStanding_of_no_slot (freed : State → State) (n : Nat) (s : State) (h : s.slotGrantable = false) :
    State.grantStanding freed n s = s := by
  cases n with
  | zero => rfl
  | succ n => unfold State.grantStanding; rw [if_neg (by simp [h])]

/-- With no claim waiting nothing is granted (R81). -/
theorem grantStanding_of_no_claim (freed : State → State) (n : Nat) (s : State) (h : s.planner.claims = []) :
    State.grantStanding freed n s = s := by
  cases n with
  | zero => rfl
  | succ n =>
    unfold State.grantStanding
    split
    · rw [h]
    · rfl

theorem grants_changes (s : State) : s.changesOnly slotFields s.grants :=
  grantStanding_changes (by decide) slotFreed_changes _ s

theorem grants_of_no_slot (s : State) (h : s.slotGrantable = false) : s.grants = s := grantStanding_of_no_slot _ _ s h

theorem afterDampers_changes (n : Nat) (s : State) : s.changesOnly slotFields (s.afterDampers n) :=
  changes_ite (fun _ => slotFreed_changes s) fun _ => grants_changes s

theorem fireTime_changes (s : State) (c : Chan) : s.changesOnly slotFields (s.fireTime c) := by
  unfold State.fireTime
  split
  · exact changes_refl _ s
  · split
    · exact changes_refl _ s
    · exact changes_ite (fun _ => changes_refl _ s) fun _ =>
        changes_ite (fun _ => changes_then (changes_widen (rechoose_changes s _ _)) (grants_changes _)) fun _ =>
          changes_ite (fun _ => changes_widen (dropArmed_changes s _ _ _)) fun _ =>
            changes_then (changes_widen (claimStrike_changes s _ _)) (grants_changes _)

theorem dampChannel_changes (s : State) (c : Chan) : s.changesOnly slotFields (s.dampChannel c) :=
  changes_then (changes_widen (applyDamp_changes s c)) (afterDampers_changes _ _)

theorem dampChannelAll_changes (s : State) (c : Chan) : s.changesOnly slotFields (s.dampChannelAll c) :=
  changes_foldl _ (fun s _ => dampChannel_changes s c) _ s

theorem dampAll_changes (s : State) : s.changesOnly slotFields s.dampAll := changes_foldl _ dampChannelAll_changes _ s

theorem dampPassed_changes (s : State) (raise : Bool) (cs : BitVec 24) : s.changesOnly slotFields (s.dampPassed raise cs) :=
  changes_then (changes_widen (dampNow_changes s raise cs)) (afterDampers_changes _ _)

theorem dampBefore_changes (s : State) (p : Pos) (c : Chan) : s.changesOnly slotFields (s.dampBefore p c) := by
  unfold State.dampBefore
  split
  · exact changes_ite (fun _ => dampChannel_changes s c) fun _ => changes_refl _ s
  · exact changes_refl _ s

/-- With no event due for the channel, nothing applies before the placed one (R121). -/
theorem dampBefore_of_none (s : State) (p : Pos) (c : Chan) (h : s.firstDamp c = none) : s.dampBefore p c = s := by
  unfold State.dampBefore
  rw [h]

theorem dampBeforeAll_changes (s : State) (p : Pos) (c : Chan) : s.changesOnly slotFields (s.dampBeforeAll p c) :=
  changes_foldl _ (fun s _ => dampBefore_changes s p c) _ s

theorem dampPlaced_changes (s : State) (p : Pos) (raise : Bool) (cs : BitVec 24) :
    s.changesOnly slotFields (s.dampPlaced p raise cs) :=
  changes_then (changes_foldl _ (fun s c => dampBeforeAll_changes s p c) _ s) (dampPassed_changes _ _ _)

theorem lowerDampers_changes (s : State) : s.changesOnly grantFields s.lowerDampers := by
  have h : s.changesOnly grantFields s.lowerAll := changes_widen (lowerAll_changes s)
  unfold State.lowerDampers
  exact changes_ite (fun _ => changes_then h (grantsFreed_changes _)) fun _ =>
    changes_then h (grantStanding_changes (fun _ m => m) grantsFreed_changes _ _)

/-! ### The station -/

theorem startScan_changes (s : State) (g : ScanTarget) : s.changesOnly [.reader] (s.startScan g) := setReader_changes s _

theorem cleanUp_changes (s : State) : s.changesOnly cleanFields s.cleanUp := by
  unfold State.cleanUp
  refine changes_then (gs := [.port, .attention]) ?_ (withdraw_changes _ _)
  refine changes_then (gs := [.station]) ?_ (setStation_changes _ _)
  refine changes_then (gs := [.clock]) ?_ (setClock_changes _ _)
  refine changes_then (gs := [.rotor]) ?_ (stopRotor_changes _)
  refine changes_then (gs := grantFields) ?_ (lowerDampers_changes _)
  refine changes_then (gs := [.inputs, .confirm]) ?_ (abandonAll_changes _)
  exact changes_then (changes_widen (flushStrikes_changes s)) (setReader_changes _ _)

theorem finishDone_changes (s : State) :
    s.changesOnly [.reader, .rotor, .clock, .station, .port, .attention] s.finishDone := by
  unfold State.finishDone
  refine changes_then (gs := [.port, .attention]) ?_ (withdraw_changes _ _)
  refine changes_then (gs := [.station]) ?_ (setStation_changes _ _)
  refine changes_then (gs := [.clock]) ?_ (setClock_changes _ _)
  exact changes_then (changes_widen (setReader_changes s _)) (stopRotor_changes _)

theorem endReport_changes (s : State) : s.changesOnly cleanFields s.endReport := by
  unfold State.endReport
  split
  · exact changes_then (changes_then (changes_then (changes_widen (setReader_changes s _)) (lowerDampers_changes _))
      (stopRotor_changes _)) (setStation_changes _ _)
  · exact cleanUp_changes s

theorem enterListening_changes (s : State) : s.changesOnly [.station, .port, .attention] s.enterListening :=
  changes_then (changes_widen (setStation_changes s _)) (withdraw_changes _ _)

theorem establish_changes (s : State) : s.changesOnly [.clock, .roster, .reader, .rotor] s.establish :=
  changes_then
    (changes_then (changes_then (changes_widen (setClock_changes s _)) (consumeOffsets_changes _)) (startScan_changes _ _))
    (setRotor_changes _ _)

theorem rejoinTest_changes (s : State) : s.changesOnly [.clock, .roster, .reader, .rotor] s.rejoinTest :=
  changes_ite (fun _ => establish_changes s) fun _ => changes_refl _ s

theorem enterRejoining_changes (s : State) (p : Option Piece) :
    s.changesOnly [.planner, .reader, .station, .clock, .port, .attention, .roster, .rotor] (s.enterRejoining p) := by
  unfold State.enterRejoining
  refine changes_then (gs := [.clock, .roster, .reader, .rotor]) ?_ (rejoinTest_changes _)
  refine changes_then (gs := [.port, .attention]) ?_ (withdraw_changes _ _)
  refine changes_then (gs := [.clock]) ?_ (setClock_changes _ _)
  refine changes_then (gs := [.station]) ?_ (setStation_changes _ _)
  exact changes_then (changes_widen (flushStrikes_changes s)) (setReader_changes _ _)

theorem leaveCountin_changes (s : State) :
    s.changesOnly [.planner, .reader, .clock, .station, .port, .attention] s.leaveCountin := by
  unfold State.leaveCountin
  refine changes_then (gs := [.port, .attention]) ?_ (withdraw_changes _ _)
  refine changes_then (gs := [.station]) ?_ (setStation_changes _ _)
  refine changes_then (gs := [.clock]) ?_ (setClock_changes _ _)
  exact changes_then (changes_widen (flushStrikes_changes s)) (setReader_changes _ _)

/-- What entering HOLDING reaches. -/
abbrev holdFields : List Field := [.clock, .station, .planner, .channels, .attention, .port, .handler]

theorem enterHolding_changes (s : State) (n : Nat) (owner : Bool) (ms limit : Nat) :
    s.changesOnly holdFields (s.enterHolding n owner ms limit) := by
  unfold State.enterHolding
  have a : ∀ u : State, s.changesOnly holdFields u → s.changesOnly holdFields (u.offer .mark) := fun u h =>
    changes_then h (offer_changes u _)
  have b : ∀ (u : State) f, s.changesOnly holdFields u → s.changesOnly holdFields (u.offer f) := fun u f h =>
    changes_then h (offer_changes u f)
  have c : s.changesOnly holdFields
      (((((s.setClock { s.clock with hold := some (s.newHold n owner ms limit) }).setStation
        { s.station with state := .holding, returnState := some s.station.state, companyDeadline := none }).holdQueue
          (s.newHold n owner ms limit).pos).armAllDue)) := by
    refine changes_then (gs := armFields) ?_ (armAllDue_changes _)
    refine changes_then (gs := armFields) ?_ (holdQueue_changes _ _)
    exact changes_then (changes_widen (setClock_changes s _)) (setStation_changes _ _)
  have d := changes_ite (c := (s.station.state == .playing) = true) (fun _ => a _ c) fun _ => c
  exact changes_ite (fun _ => b _ _ d) fun _ => d

theorem reachHold_changes (s : State) (n : Nat) (owner : Bool) (ms limit : Nat) :
    s.changesOnly holdFields (s.reachHold n owner ms limit) :=
  changes_ite (fun _ => changes_widen (setClock_changes s _)) fun _ => enterHolding_changes s n owner ms limit

theorem withdrawMarkOnRejoin_changes (s : State) : s.changesOnly [.port, .attention] s.withdrawMarkOnRejoin := by
  unfold State.withdrawMarkOnRejoin
  split
  · exact withdraw_changes s _
  · exact changes_refl _ s

theorem releaseHold_changes (s : State) (h : HoldState) :
    s.changesOnly [.clock, .roster, .port, .station, .planner, .channels, .inputs, .attention, .confirm, .dampers, .reader]
      (s.releaseHold h) := by
  unfold State.releaseHold
  refine changes_then (gs := slotFields) ?_ (dampAll_changes _)
  refine changes_then (gs := armFields) ?_ (armAllDue_changes _)
  refine changes_then (gs := [.planner]) ?_ (projectAll_changes _)
  refine changes_then (gs := [.port, .attention]) ?_ (withdrawMarkOnRejoin_changes _)
  refine changes_then (gs := [.station]) ?_ (setStation_changes _ _)
  refine changes_then (gs := [.port, .attention]) ?_ (withdraw_changes _ _)
  exact changes_then (changes_widen (setClock_changes s _)) (consumeOffsets_changes _)

theorem enterHalted_changes (s : State) : s.changesOnly cleanFields s.enterHalted := by
  unfold State.enterHalted
  refine changes_then (gs := [.port, .attention]) ?_ (withdraw_changes _ _)
  refine changes_then (gs := [.station]) ?_ (setStation_changes _ _)
  refine changes_then (gs := [.clock]) ?_ (setClock_changes _ _)
  refine changes_then (gs := [.rotor]) ?_ (stopRotor_changes _)
  refine changes_then (gs := grantFields) ?_ (lowerDampers_changes _)
  exact changes_then (changes_widen (flushStrikes_changes s)) (setReader_changes _ _)

theorem clash_changes (s : State) (k : Nat) : s.changesOnly cleanFields (s.clash k) := by
  unfold State.clash
  split
  · exact changes_refl _ s
  · exact changes_widen (raise_changes s _ _)
  · exact changes_widen (raise_changes s _ _)
  · exact changes_then (enterHalted_changes s) (raise_changes _ _ _)

theorem keepCompany_changes (s : State) : s.changesOnly [.station] s.keepCompany := setStation_changes s _

end Sys2Proof.Machine
end

