-- ==== Sys2Proof/Laws/Port.lean ====
section
/-! SUPPORT. The receive stage of the port after each of its operations, field by field, and what a start bit and a discarded frame can change. -/

set_option Elab.async false

namespace Sys2Proof.Machine

variable (p : Port) (now since b : Time)

/-! ### `Port.dominantAt` -/

@[simp] theorem Port.dominantAt_quietSince : (p.dominantAt now b).quietSince = none := rfl
@[simp] theorem Port.dominantAt_listenFrom : (p.dominantAt now b).listenFrom = now := rfl
@[simp] theorem Port.dominantAt_acceptFrom : (p.dominantAt now b).acceptFrom = now + quietGap b := rfl
@[simp] theorem Port.dominantAt_yieldOwed : (p.dominantAt now b).yieldOwed = p.yieldOwed := rfl
@[simp] theorem Port.dominantAt_attempt : (p.dominantAt now b).attempt = p.attempt := rfl
@[simp] theorem Port.dominantAt_failedAttempts : (p.dominantAt now b).failedAttempts = p.failedAttempts := rfl
@[simp] theorem Port.dominantAt_mutedUntil : (p.dominantAt now b).mutedUntil = p.mutedUntil := rfl
@[simp] theorem Port.dominantAt_unsent : (p.dominantAt now b).unsent = p.unsent := rfl
@[simp] theorem Port.dominantAt_rx : (p.dominantAt now b).rx = p.rx := rfl
@[simp] theorem Port.dominantAt_crcErrors : (p.dominantAt now b).crcErrors = p.crcErrors := rfl
@[simp] theorem Port.dominantAt_framingErrors : (p.dominantAt now b).framingErrors = p.framingErrors := rfl
@[simp] theorem Port.dominantAt_unknownKind : (p.dominantAt now b).unknownKind = p.unknownKind := rfl
@[simp] theorem Port.dominantAt_arbitrationLosses : (p.dominantAt now b).arbitrationLosses = p.arbitrationLosses := rfl
@[simp] theorem Port.dominantAt_txFailures : (p.dominantAt now b).txFailures = p.txFailures := rfl
@[simp] theorem Port.dominantAt_txOverflow : (p.dominantAt now b).txOverflow = p.txOverflow := rfl

/-! ### `Port.waitsFrom` -/

@[simp] theorem Port.waitsFrom_quietSince : (p.waitsFrom now b).quietSince = p.quietSince := rfl
@[simp] theorem Port.waitsFrom_listenFrom : (p.waitsFrom now b).listenFrom = p.listenFrom := rfl
@[simp] theorem Port.waitsFrom_acceptFrom : (p.waitsFrom now b).acceptFrom = now + quietGap b := rfl
@[simp] theorem Port.waitsFrom_yieldOwed : (p.waitsFrom now b).yieldOwed = p.yieldOwed := rfl
@[simp] theorem Port.waitsFrom_attempt : (p.waitsFrom now b).attempt = p.attempt := rfl
@[simp] theorem Port.waitsFrom_failedAttempts : (p.waitsFrom now b).failedAttempts = p.failedAttempts := rfl
@[simp] theorem Port.waitsFrom_mutedUntil : (p.waitsFrom now b).mutedUntil = p.mutedUntil := rfl
@[simp] theorem Port.waitsFrom_unsent : (p.waitsFrom now b).unsent = p.unsent := rfl
@[simp] theorem Port.waitsFrom_rx : (p.waitsFrom now b).rx = .waiting := rfl
@[simp] theorem Port.waitsFrom_crcErrors : (p.waitsFrom now b).crcErrors = p.crcErrors := rfl
@[simp] theorem Port.waitsFrom_framingErrors : (p.waitsFrom now b).framingErrors = p.framingErrors := rfl
@[simp] theorem Port.waitsFrom_unknownKind : (p.waitsFrom now b).unknownKind = p.unknownKind := rfl
@[simp] theorem Port.waitsFrom_arbitrationLosses : (p.waitsFrom now b).arbitrationLosses = p.arbitrationLosses := rfl
@[simp] theorem Port.waitsFrom_txFailures : (p.waitsFrom now b).txFailures = p.txFailures := rfl
@[simp] theorem Port.waitsFrom_txOverflow : (p.waitsFrom now b).txOverflow = p.txOverflow := rfl

/-! ### `Port.frameEnds` -/

@[simp] theorem Port.frameEnds_quietSince : (p.frameEnds now b).quietSince = some now := rfl
@[simp] theorem Port.frameEnds_listenFrom : (p.frameEnds now b).listenFrom = p.listenFrom := rfl
@[simp] theorem Port.frameEnds_acceptFrom : (p.frameEnds now b).acceptFrom = stopBitFrom now b + quietGap b := rfl
@[simp] theorem Port.frameEnds_yieldOwed : (p.frameEnds now b).yieldOwed = p.yieldOwed := rfl
@[simp] theorem Port.frameEnds_attempt : (p.frameEnds now b).attempt = p.attempt := rfl
@[simp] theorem Port.frameEnds_failedAttempts : (p.frameEnds now b).failedAttempts = p.failedAttempts := rfl
@[simp] theorem Port.frameEnds_mutedUntil : (p.frameEnds now b).mutedUntil = p.mutedUntil := rfl
@[simp] theorem Port.frameEnds_unsent : (p.frameEnds now b).unsent = p.unsent := rfl
@[simp] theorem Port.frameEnds_rx : (p.frameEnds now b).rx = .waiting := rfl
@[simp] theorem Port.frameEnds_crcErrors : (p.frameEnds now b).crcErrors = p.crcErrors := rfl
@[simp] theorem Port.frameEnds_framingErrors : (p.frameEnds now b).framingErrors = p.framingErrors := rfl
@[simp] theorem Port.frameEnds_unknownKind : (p.frameEnds now b).unknownKind = p.unknownKind := rfl
@[simp] theorem Port.frameEnds_arbitrationLosses : (p.frameEnds now b).arbitrationLosses = p.arbitrationLosses := rfl
@[simp] theorem Port.frameEnds_txFailures : (p.frameEnds now b).txFailures = p.txFailures := rfl
@[simp] theorem Port.frameEnds_txOverflow : (p.frameEnds now b).txOverflow = p.txOverflow := rfl

/-! ### `Port.received` -/

@[simp] theorem Port.received_quietSince : (p.received now b).quietSince = some now := rfl
@[simp] theorem Port.received_listenFrom : (p.received now b).listenFrom = p.listenFrom := rfl
@[simp] theorem Port.received_acceptFrom : (p.received now b).acceptFrom = stopBitFrom now b + quietGap b := rfl
@[simp] theorem Port.received_yieldOwed : (p.received now b).yieldOwed = (p.endedAt now && p.yieldOwed) := rfl
@[simp] theorem Port.received_attempt : (p.received now b).attempt = p.attempt := rfl
@[simp] theorem Port.received_failedAttempts : (p.received now b).failedAttempts = p.failedAttempts := rfl
@[simp] theorem Port.received_mutedUntil : (p.received now b).mutedUntil = p.mutedUntil := rfl
@[simp] theorem Port.received_unsent : (p.received now b).unsent = p.unsent := rfl
@[simp] theorem Port.received_rx : (p.received now b).rx = .waiting := rfl
@[simp] theorem Port.received_crcErrors : (p.received now b).crcErrors = p.crcErrors := rfl
@[simp] theorem Port.received_framingErrors : (p.received now b).framingErrors = p.framingErrors := rfl
@[simp] theorem Port.received_unknownKind : (p.received now b).unknownKind = p.unknownKind := rfl
@[simp] theorem Port.received_arbitrationLosses : (p.received now b).arbitrationLosses = p.arbitrationLosses := rfl
@[simp] theorem Port.received_txFailures : (p.received now b).txFailures = p.txFailures := rfl
@[simp] theorem Port.received_txOverflow : (p.received now b).txOverflow = p.txOverflow := rfl

/-! ### `Port.unheard` -/

@[simp] theorem Port.unheard_quietSince : (p.unheard now b).quietSince = none := rfl
@[simp] theorem Port.unheard_listenFrom : (p.unheard now b).listenFrom = p.listenFrom := rfl
@[simp] theorem Port.unheard_acceptFrom : (p.unheard now b).acceptFrom = now + quietGap b := rfl
@[simp] theorem Port.unheard_yieldOwed : (p.unheard now b).yieldOwed = false := rfl
@[simp] theorem Port.unheard_attempt : (p.unheard now b).attempt = p.attempt := rfl
@[simp] theorem Port.unheard_failedAttempts : (p.unheard now b).failedAttempts = p.failedAttempts := rfl
@[simp] theorem Port.unheard_mutedUntil : (p.unheard now b).mutedUntil = p.mutedUntil := rfl
@[simp] theorem Port.unheard_unsent : (p.unheard now b).unsent = p.unsent := rfl
@[simp] theorem Port.unheard_rx : (p.unheard now b).rx = p.rx := rfl
@[simp] theorem Port.unheard_crcErrors : (p.unheard now b).crcErrors = p.crcErrors := rfl
@[simp] theorem Port.unheard_framingErrors : (p.unheard now b).framingErrors = p.framingErrors := rfl
@[simp] theorem Port.unheard_unknownKind : (p.unheard now b).unknownKind = p.unknownKind := rfl
@[simp] theorem Port.unheard_arbitrationLosses : (p.unheard now b).arbitrationLosses = p.arbitrationLosses := rfl
@[simp] theorem Port.unheard_txFailures : (p.unheard now b).txFailures = p.txFailures := rfl
@[simp] theorem Port.unheard_txOverflow : (p.unheard now b).txOverflow = p.txOverflow := rfl

/-! ### The start bit and the discarded frame -/

/-- A start bit of another station touches neither the queue nor the attempt nor a counter (R147). -/
theorem Port.leadingEdge_keeps :
    (p.leadingEdge now since b).unsent = p.unsent ∧ (p.leadingEdge now since b).attempt = p.attempt
      ∧ (p.leadingEdge now since b).failedAttempts = p.failedAttempts ∧ (p.leadingEdge now since b).mutedUntil = p.mutedUntil
      ∧ (p.leadingEdge now since b).crcErrors = p.crcErrors ∧ (p.leadingEdge now since b).framingErrors = p.framingErrors
      ∧ (p.leadingEdge now since b).unknownKind = p.unknownKind := by
  unfold Port.leadingEdge
  split <;> exact ⟨rfl, rfl, rfl, rfl, rfl, rfl, rfl⟩

/-- After the start bit of another station the stage receives what it accepts, and takes up nothing else (R155). -/
theorem Port.leadingEdge_rx (h : p.attempt = none) :
    (p.leadingEdge now since b).rx = p.edgeStage (p.acceptsEdge now since b) := by
  unfold Port.leadingEdge
  rw [if_neg (by simp [h])]

/-- A start bit that is not accepted leaves no abandoned attempt to listen on to (R150, R155). -/
theorem Port.edgeStage_refused_waits (h : p.rx ≠ .receiving) : p.edgeStage false = .waiting := by
  unfold Port.edgeStage
  rw [if_neg (by decide)]
  split
  · rfl
  · cases hx : p.rx <;> simp_all

/-- While this station sends, the leading edge is its own (R147). -/
theorem Port.leadingEdge_sending (h : p.attempt.isSome = true) : p.leadingEdge now since b = p := by
  unfold Port.leadingEdge
  rw [if_pos h]

/-- After a discarded frame the stage waits for 12 recessive bit times the line recessive from `now` on (R155). -/
theorem Port.discard_waits (count : Port → Port) :
    (p.discard now b count).rx = .waiting ∧ (p.discard now b count).acceptFrom = now + quietGap b
      ∧ (p.discard now b count).quietSince = none ∧ (p.discard now b count).yieldOwed = false := ⟨rfl, rfl, rfl, rfl⟩

/-- After an attempt this station abandoned, a discarded frame steps no counter (R150). -/
theorem Port.discard_listening (count : Port → Port) (h : p.rx = .listening) :
    p.discard now b count = { p.waitsFrom now b with quietSince := none, yieldOwed := false } := by
  unfold Port.discard
  rw [if_pos h]

/-- A start bit is accepted once the line has been recessive for 12 bit times, counted from no earlier than the moment the port listens from (R155). -/
theorem Port.acceptsEdge_iff :
    p.acceptsEdge now since b = true ↔ since + quietGap b ≤ now ∧ p.listenFrom + quietGap b ≤ now := by
  unfold Port.acceptsEdge Port.recessiveFrom
  rw [decide_eq_true_eq, ← max_add_add_right, max_le_iff]

/-- The 12 recessive bit times after a frame end count its last stop bit, and so end 11 bit times later (R144, R155). -/
theorem stopBitFrom_quietGap : stopBitFrom now b + quietGap b = now + 11 * b := by
  unfold stopBitFrom quietGap Config.quietGapBits
  ring

/-- A frame is taken up by a stage that has begun a reception, or that accepted start bits where the frame began (R155). -/
theorem Port.hearsFrom_iff (began : Time) : p.hearsFrom began = true ↔ p.rx ≠ .waiting ∨ p.acceptFrom ≤ began := by
  simp [Port.hearsFrom]

/-- The moment of a frame end stands as the start of the quiet until a start bit falls (R146). -/
theorem Port.endedAt_iff : p.endedAt now = true ↔ p.quietSince = some now := by simp [Port.endedAt]

/-- What ends at the moment of a frame end is heard in either order (R164). -/
theorem Port.hears_of_endedAt (d : Time) (h : p.quietSince = some now) : p.hears now d = true := by
  simp [Port.hears, Port.endedAt, h]

/-- The spontaneous REPORT moves in the queue alone, and no frame is lost or gained (R161). -/
theorem insertTx_perm (e : TxEntry) (xs : List TxEntry) : (insertTx e xs).Perm (e :: xs) := by
  induction xs with
  | nil => exact .refl _
  | cons x xs ih =>
    unfold insertTx
    split
    · exact (ih.cons x).trans (.swap _ _ _)
    · exact .refl _

theorem Port.spontaneousLast_perm : (p.spontaneousLast now).unsent.Perm p.unsent := by
  unfold Port.spontaneousLast
  split
  · next e h => exact (insertTx_perm _ _).trans (List.perm_cons_erase (List.mem_of_find?_eq_some h)).symm
  · exact .refl _

theorem Port.spontaneousLast_attempt : (p.spontaneousLast now).attempt = p.attempt := by
  unfold Port.spontaneousLast
  split <;> rfl

/-- A stage that has begun a reception hears what ends now (R155). -/
theorem Port.hears_of_receiving (d : Time) (h : p.rx ≠ .waiting) : p.hears now d = true := by
  simp [Port.hears, Port.hearsFrom, h]

end Sys2Proof.Machine
end

