-- ==== Sys2Proof/Laws/Plays.lean ====
section
/-! SUPPORT. What the effect of a command may reach: `State.plays s t` says that nothing outside `playFields` changes, and that a service handler that waits for no LEAVE_SERVICE stands as it was. -/

set_option Elab.async false

namespace Sys2Proof.Machine

/-- From `s` to `t` only what a playing part moves has changed. -/
def State.plays (s t : State) : Prop :=
  s.changesOnly playFields t ∧ (s.handler.isLeaving = false → t.handler = s.handler)

variable {s t u : State} {fs : List Field}

theorem plays_refl (s : State) : s.plays s := ⟨changes_refl _ s, fun _ => rfl⟩

theorem plays_trans (h : s.plays t) (g : t.plays u) : s.plays u := by
  refine ⟨changes_then h.1 g.1 (List.Subset.refl _), fun hs => ?_⟩
  have ht := h.2 hs
  rw [g.2 (by rw [ht, hs]), ht]

theorem plays_of (h : s.changesOnly fs t) (hs : fs ⊆ playFields := by decide) (hh : Field.handler ∉ fs := by decide) :
    s.plays t :=
  ⟨changes_widen h hs, fun _ => changes_handler h hh⟩

/-- A change that leaves the handler alone follows. -/
theorem plays_then (h : s.plays t) (g : t.changesOnly fs u) (hs : fs ⊆ playFields := by decide)
    (hh : Field.handler ∉ fs := by decide) : s.plays u :=
  plays_trans h (plays_of g hs hh)

theorem plays_foldl {α : Type} (f : State → α → State) (h : ∀ (s : State) (x : α), s.plays (f s x)) (xs : List α) (s : State) :
    s.plays (xs.foldl f s) := by
  induction xs generalizing s with
  | nil => exact plays_refl s
  | cons x xs ih => exact plays_trans (h s x) (ih (f s x))

theorem plays_ite {c : Prop} [Decidable c] (h : c → s.plays t) (g : ¬c → s.plays u) : s.plays (if c then t else u) := by
  split
  · exact h ‹_›
  · exact g ‹_›

theorem plays_onlyIf (b : Bool) (f : State → State) (h : s.plays (f s)) : s.plays (s.onlyIf b f) :=
  plays_ite (fun _ => h) fun _ => plays_refl s

theorem plays_getD {o : Option State} (h : ∀ t, o = some t → s.plays t) (g : s.plays u) : s.plays (o.getD u) := by
  cases o with
  | none => exact g
  | some t => exact h t rfl

theorem replyGone_of_not_leaving {h : Handler} (hh : h.isLeaving = false) : h.replyGone = h := by
  cases h <;> first | rfl | cases hh

theorem handlerAfter_of_not_leaving {h : Handler} (hh : h.isLeaving = false) (lost : Option TxEntry) :
    handlerAfter h lost = h := by
  unfold handlerAfter
  split
  · split
    · exact replyGone_of_not_leaving hh
    · rfl
  · rfl

/-! ### Operations that offer frames -/

theorem offer_plays (s : State) (f : TxFrame) : s.plays (s.offer f) :=
  ⟨changes_widen (offer_changes s f), fun h => handlerAfter_of_not_leaving h _⟩

theorem offerReport_plays (s : State) : s.plays s.offerReport := by
  unfold State.offerReport
  refine plays_ite (fun _ => plays_refl s) fun _ => ?_
  split
  · exact offer_plays s _
  · exact plays_refl s

theorem enterHolding_plays (s : State) (n : Nat) (owner : Bool) (ms limit : Nat) : s.plays (s.enterHolding n owner ms limit) := by
  unfold State.enterHolding
  have c : s.plays
      (((((s.setClock { s.clock with hold := some (s.newHold n owner ms limit) }).setStation
        { s.station with state := .holding, returnState := some s.station.state, companyDeadline := none }).holdQueue
          (s.newHold n owner ms limit).pos).armAllDue)) :=
    plays_then (plays_then (plays_then (plays_of (setClock_changes s _)) (setStation_changes _ _)) (holdQueue_changes _ _))
      (armAllDue_changes _)
  have d := plays_ite (c := (s.station.state == .playing) = true) (fun _ => plays_trans c (offer_plays _ .mark)) fun _ => c
  exact plays_ite (fun _ => plays_trans d (offer_plays _ _)) fun _ => d

theorem reachHold_plays (s : State) (n : Nat) (owner : Bool) (ms limit : Nat) : s.plays (s.reachHold n owner ms limit) :=
  plays_ite (fun _ => plays_of (setClock_changes s _)) fun _ => enterHolding_plays s n owner ms limit

/-! ### The reader -/

theorem addEvent_changes (s : State) (p : Pos) (k : EventKind) : s.changesOnly [.reader] (s.addEvent p k) :=
  setReader_changes s _

theorem placeEvent_plays (s : State) (p : Pos) (k : EventKind) : s.plays (s.placeEvent p k) := by
  unfold State.placeEvent
  split
  · exact plays_of (addEvent_changes s p _)
  · exact plays_of (addEvent_changes s p _)
  · dsimp only
    exact plays_ite (fun _ => plays_refl s) fun _ => plays_ite (fun _ => plays_of (dampPlaced_changes s _ _ _)) fun _ =>
      plays_then (plays_of (addEvent_changes s p _)) (dampAll_changes _)
  · exact plays_ite (fun _ => plays_of (setRotor_changes s _)) fun _ => plays_of (addEvent_changes s p _)
  · exact plays_ite (fun _ => reachHold_plays s _ _ _ _) fun _ => plays_of (addEvent_changes s p _)
  · exact plays_ite (fun _ => plays_of (endReport_changes s)) fun _ => plays_of (addEvent_changes s p _)

theorem takeStrike_changes (s : State) (e : StrikeEntry) (t : State) (h : s.takeStrike e = some t) :
    s.changesOnly armFields t := by
  unfold State.takeStrike at h
  split at h
  · exact Option.some.inj h ▸ changes_refl _ s
  · split at h
    · exact Option.some.inj h ▸ insertEntry_changes s e
    · cases h

theorem takeRoll_changes (s : State) (p : Pos) (v w d i : Nat) (ch : Chan × Option Chan) (t : State)
    (h : s.takeRoll p v w d i ch = some t) : s.changesOnly [.planner, .channels, .attention, .reader] t := by
  unfold State.takeRoll at h
  dsimp only at h
  split at h
  · exact changes_widen (takeStrike_changes s _ t h)
  · split at h
    · exact Option.some.inj h ▸ changes_widen (setReader_changes s _)
    · obtain ⟨x, _, hx⟩ := Option.map_eq_some_iff.1 h
      rw [← hx]
      exact changes_getD (fun u hu => changes_then (changes_widen (raise_changes s _ _)) (takeStrike_changes _ _ u hu))
        (changes_refl _ s)

theorem deliver_plays (s : State) (p : Pos) (i : Nat) (r : Record) (t : State) (h : s.deliver p i r = some t) : s.plays t := by
  unfold State.deliver at h
  split at h
  · exact Option.some.inj h ▸ plays_of (raise_changes s _ _)
  · split at h
    · exact Option.some.inj h ▸ plays_refl s
    · split at h
      · exact Option.some.inj h ▸ plays_of (raise_changes s _ _)
      · exact plays_of (takeStrike_changes s _ t h)
  · split at h
    · exact Option.some.inj h ▸ plays_refl s
    · split at h
      · exact Option.some.inj h ▸ plays_of (raise_changes s _ _)
      · exact plays_of (takeRoll_changes s _ _ _ _ _ _ t h)
  · split at h
    · split at h
      · exact Option.some.inj h ▸ plays_trans (plays_of (setReader_changes s _)) (placeEvent_plays _ _ _)
      · exact Option.some.inj h ▸ plays_trans (plays_of (setReader_changes s _)) (placeEvent_plays _ _ _)
      · exact Option.some.inj h ▸ placeEvent_plays s _ _
    · cases h

theorem takeRecord_plays (s : State) (c : Cursor) (t : State) (h : s.takeRecord c = some t) : s.plays t := by
  unfold State.takeRecord at h
  dsimp only at h
  split at h
  · exact deliver_plays s _ _ _ t h
  · exact plays_trans (plays_of (setReader_changes s _)) (deliver_plays _ _ _ _ t h)

theorem takeStroke_changes (s : State) (k : Fin 4) (r : RollRecord) (t : State) (h : s.takeStroke k r = some t) :
    s.changesOnly [.planner, .channels, .attention, .reader] t := by
  unfold State.takeStroke at h
  exact changes_then (changes_widen (setReader_changes s _)) (takeStrike_changes _ _ t h)

theorem takeItem_plays (s : State) (i : Item) (t : State) (h : s.takeItem i = some t) : s.plays t := by
  unfold State.takeItem at h
  dsimp only at h
  split at h
  · exact plays_trans (plays_of (setReader_changes s _)) (takeRecord_plays _ _ t h)
  · exact plays_then (plays_of (setReader_changes s _)) (takeStroke_changes _ _ _ t h)

theorem readItem_plays (s : State) : s.plays s.readItem := by
  unfold State.readItem
  refine plays_ite (fun _ => ?_) fun _ => plays_refl s
  split
  · exact plays_ite (fun _ => plays_getD (fun t ht => takeItem_plays s _ t ht) (plays_refl s)) fun _ => plays_refl s
  · exact plays_refl s

theorem holdReached_plays (s : State) : s.plays s.holdReached := by
  unfold State.holdReached
  split
  · rename_i e rest _
    have h : s.plays (s.setReader { s.reader with timeline := rest }) := plays_of (setReader_changes s _)
    dsimp only
    split
    · exact plays_trans h (reachHold_plays _ _ _ _ _)
    · exact h
  · exact plays_refl s

theorem endReached_plays (s : State) : s.plays s.endReached := by
  unfold State.endReached
  split
  · exact plays_then (plays_of (setReader_changes s _)) (endReport_changes _)
  · exact plays_refl s

/-! ### The scan -/

theorem completeHandOver_plays (s : State) (sc : Scan) : s.plays (s.completeHandOver sc) := by
  unfold State.completeHandOver
  exact plays_then (plays_foldl _ (fun s k => placeEvent_plays s _ k) _ s) (setReader_changes _ _)

theorem handOverStart_plays (s : State) (sc : Scan) : s.plays (s.handOverStart sc) := by
  unfold State.handOverStart
  have h : s.plays (s.setClock (s.clock.takeLastHold sc.lastHold)) := plays_of (setClock_changes s _)
  exact plays_ite (fun _ => plays_trans (plays_then h (setClock_changes _ _)) (completeHandOver_plays _ _)) fun _ =>
    plays_then (plays_then h (setReader_changes _ _)) (leaveCountin_changes _)

theorem handOverEntry_plays (s : State) (sc : Scan) : s.plays (s.handOverEntry sc) :=
  plays_trans (plays_of (setClock_changes s _)) (completeHandOver_plays _ _)

theorem scanHold_changes (s : State) (p : Pos) (k : EventKind) (n : Nat) (t : State) (h : s.scanHold p k n = some t) :
    s.changesOnly [.clock, .reader] t := by
  unfold State.scanHold at h
  split at h
  · exact Option.some.inj h ▸ changes_widen (setClock_changes s _)
  · split at h
    · exact Option.some.inj h ▸ changes_widen (addEvent_changes s p k)
    · cases h

/-- Taking an event into the scan reaches the clock and the reader at most. -/
theorem scanNote_changes (s : State) (sc : Scan) (p : Pos) (k : EventKind) (x : State × Scan)
    (h : s.scanNote sc p k = some x) : s.changesOnly [.clock, .reader] x.1 := by
  unfold State.scanNote at h
  split at h
  case h_3 =>
    split at h
    · exact Option.some.inj h ▸ changes_refl _ s
    · obtain ⟨u, hu, rfl⟩ := Option.map_eq_some_iff.1 h
      exact scanHold_changes s _ _ _ u hu
  all_goals exact Option.some.inj h ▸ changes_refl _ s

theorem setScan_changes (s : State) (sc : Scan) : s.changesOnly [.reader] (s.setScan sc) := setReader_changes s _

theorem scanTo_changes (s : State) (sc : Scan) : s.changesOnly [.reader] (s.scanTo sc) := setReader_changes s _

theorem noteHeld_changes (s : State) (sc : Scan) (t : State) (h : s.noteHeld sc = some t) :
    s.changesOnly [.clock, .reader] t := by
  unfold State.noteHeld at h
  split at h
  · cases h
  · obtain ⟨x, hx, rfl⟩ := Option.map_eq_some_iff.1 h
    exact changes_then (changes_widen (scanNote_changes s _ _ _ x hx)) (setScan_changes _ _)

theorem scanLine_plays (s : State) (sc : Scan) (t : State) (h : s.scanLine sc = some t) : s.plays t := by
  unfold State.scanLine at h
  split at h
  · split at h
    · cases h
    · split at h
      · split at h
        · exact Option.some.inj h ▸ handOverStart_plays s sc
        · exact Option.some.inj h ▸ handOverEntry_plays s sc
      · exact Option.some.inj h ▸ plays_of (setReader_changes s _)
  · split at h
    · exact plays_of (noteHeld_changes s sc t h)
    · obtain ⟨m, _, rfl⟩ := Option.map_eq_some_iff.1 h
      exact plays_of (setScan_changes s _)

theorem scanLines_plays (n : Nat) (s : State) : s.plays (State.scanLines n s) := by
  induction n generalizing s with
  | zero => exact plays_refl s
  | succ n ih =>
    unfold State.scanLines
    split
    · exact plays_refl s
    · split
      · exact plays_trans (scanLine_plays s _ _ ‹_›) (ih _)
      · exact plays_refl s

theorem testLines_plays (s : State) : s.plays s.testLines := by
  unfold State.testLines
  split
  · exact scanLines_plays _ s
  · exact plays_refl s

theorem scanEnd_plays (s : State) : s.plays s.scanEnd := by
  unfold State.scanEnd
  exact plays_then (plays_then (plays_ite (fun _ => plays_of (leaveCountin_changes s)) fun _ => plays_refl s)
    (setReader_changes _ _)) (endReport_changes _)

theorem scanTake_plays (s : State) (sc : Scan) (t : State) (h : s.scanTake sc = some t) : s.plays t := by
  unfold State.scanTake at h
  dsimp only at h
  split at h
  · exact Option.some.inj h ▸ scanEnd_plays s
  · split at h
    · exact Option.some.inj h ▸ plays_of (scanTo_changes s _)
    · obtain ⟨x, hx, rfl⟩ := Option.map_eq_some_iff.1 h
      exact plays_then (plays_of (scanNote_changes s _ _ _ x hx)) (scanTo_changes _ _)
  · exact Option.some.inj h ▸ plays_of (scanTo_changes s _)

theorem scanOn_plays (s : State) (sc : Scan) : s.plays (s.scanOn sc) := by
  unfold State.scanOn
  refine plays_ite (fun _ => plays_refl s) fun _ => ?_
  split
  · exact plays_trans (scanTake_plays s sc _ ‹_›) (testLines_plays _)
  · exact plays_refl s

theorem scanRecord_plays (s : State) : s.plays s.scanRecord := by
  unfold State.scanRecord
  refine plays_ite (fun _ => ?_) fun _ => plays_refl s
  dsimp only
  split
  · exact plays_trans (testLines_plays s) (scanOn_plays _ _)
  · exact testLines_plays s

/-! ### Frames of other stations -/

theorem touch_changes (s : State) (n : StationNo) : s.changesOnly [.roster] (s.touch n) := setPeer_changes s n _

theorem updatePeer_changes (s : State) (n : StationNo) (f : RosterEntry → RosterEntry) :
    s.changesOnly [.roster] (s.updatePeer n f) := setPeer_changes s n _

theorem receiveFrame_plays (s : State) (n : StationNo) (k : Nat) (act : State → State) (h : ∀ u : State, u.plays (act u)) :
    s.plays (s.receiveFrame n k act) := by
  unfold State.receiveFrame
  refine plays_ite (fun _ => plays_refl s) fun _ => plays_ite (fun _ => plays_of (setPort_changes s _)) fun _ => ?_
  have q : s.plays s.lineQuiet := plays_of (lineQuiet_changes s)
  exact plays_ite (fun _ => plays_then q (clash_changes _ _)) fun _ =>
    plays_then (plays_trans (plays_then q (touch_changes _ _)) (h _)) (rejoinTest_changes _)

theorem enableAtStart_changes (s : State) : s.changesOnly armFields s.enableAtStart :=
  changes_then (changes_widen (changes_foldl _ (fun s c => setChannel_changes s c _) _ s)) (releaseDeferred_changes _ _)

theorem acceptStart_plays (s : State) (p : Piece) (b : BitVec 16) (l : Byte) (d : BitVec 24) :
    s.plays (s.acceptStart p b l d) := by
  unfold State.acceptStart
  refine plays_then (plays_then ?_ (startScan_changes _ _)) (setRotor_changes _ _)
  refine plays_then (plays_then ?_ (consumeOffsets_changes _)) (setStation_changes _ _)
  exact plays_then (plays_of (enableAtStart_changes s)) (setClock_changes _ _)

theorem actStart_plays (s : State) (p : Byte) (b : BitVec 16) (l : Byte) (d : BitVec 24) : s.plays (s.actStart p b l d) := by
  unfold State.actStart
  split
  all_goals first
    | exact plays_of (raise_changes s _ _)
    | skip
  · split
    · exact plays_refl s
    · split
      · exact acceptStart_plays s _ b l d
      · exact plays_of (raise_changes s _ _)
      · exact plays_refl s
  · exact plays_refl s

theorem actStop_plays (s : State) : s.plays s.actStop :=
  plays_ite (fun _ => plays_of (cleanUp_changes s)) fun _ => plays_refl s

theorem remember_changes (s : State) (h : Nat) : s.changesOnly [.clock] (s.remember h) := setClock_changes s _

theorem actRelease_plays (s : State) (p h : Byte) : s.plays (s.actRelease p h) := by
  unfold State.actRelease
  refine plays_ite (fun _ => ?_) fun _ => plays_refl s
  have running : ∀ n, s.plays (s.releaseRunning n) := by
    intro n
    unfold State.releaseRunning
    split
    · exact plays_ite (fun _ => plays_of (raise_changes s _ _)) fun _ => plays_of (remember_changes s n)
    · exact plays_of (remember_changes s n)
  split
  · unfold State.releaseInHolding
    exact plays_ite (fun _ => plays_of (releaseHold_changes s _)) fun _ =>
      plays_ite (fun _ => plays_of (raise_changes s _ _)) fun _ => plays_of (remember_changes s _)
  · exact running _
  · exact running _
  · exact running _
  · exact plays_refl s

theorem takeMark_plays (s : State) (n : StationNo) (m : LastMark) (use : MarkUse) : s.plays (s.takeMark n m use) := by
  unfold State.takeMark
  split
  · unfold State.takeOffset
    dsimp only
    have h : ∀ f c, s.plays ((s.updatePeer n f).setClock c) := fun f c =>
      plays_then (plays_of (updatePeer_changes s n f)) (setClock_changes _ c)
    exact plays_ite (fun _ => plays_then (h _ _) (raise_changes _ _ _)) fun _ => h _ _
  · exact plays_of (updatePeer_changes s n _)
  · exact plays_of (updatePeer_changes s n _)
  · exact plays_of (updatePeer_changes s n _)

theorem rejoinAt_plays (s : State) (a b : Byte) : s.plays (s.rejoinAt a b) := by
  unfold State.rejoinAt
  refine plays_ite (fun _ => ?_) fun _ => plays_refl s
  split
  · exact plays_of (enterRejoining_changes s _)
  · exact plays_refl s

theorem actMark_plays (s : State) (n : StationNo) (m : LastMark) (h : Byte) : s.plays (s.actMark n m h) :=
  plays_trans (plays_trans (plays_of (updatePeer_changes s n _)) (takeMark_plays _ _ _ _)) (rejoinAt_plays _ _ _)

theorem actAnnounce_plays (s : State) (n : StationNo) (c a p : Byte) : s.plays (s.actAnnounce n c a p) := by
  unfold State.actAnnounce
  have h := plays_of (updatePeer_changes s n fun e => (e.takeClass c).announce a p)
  exact plays_ite (fun _ => plays_then h (raise_changes _ _ _)) fun _ => h

theorem actMute_plays (s : State) (m : BitVec 32) (p : Byte) (b c : BitVec 16) (o : Byte) : s.plays (s.actMute m p b c o) := by
  unfold State.actMute State.setMute
  refine plays_ite (fun _ => ?_) fun _ => plays_refl s
  exact plays_ite (fun _ => plays_of (setReader_changes s _)) fun _ =>
    plays_then (plays_of (setReader_changes s _)) (setPlanner_changes _ _)

theorem answerQuery_plays (s : State) (n : StationNo) : s.plays (s.answerQuery n) := offer_plays s _

theorem answerFirst_changes (s : State) : s.changesOnly [.port] s.answerFirst :=
  changes_ite (fun _ => setPort_changes s _) fun _ => changes_refl _ s

/-- Where nothing is cleared at this moment, an answer stands where it was placed (R164). -/
theorem answerFirst_of_no_clearing (s : State) (h : s.attention.clearedAt ≠ some s.now) : s.answerFirst = s := if_neg h

theorem actQuery_plays (s : State) (n : StationNo) (g : Byte) : s.plays (s.actQuery n g) :=
  plays_ite (fun _ => plays_then (answerQuery_plays s n) (answerFirst_changes _)) fun _ => plays_refl s

/-! ### Service requests -/

theorem reply_plays (s : State) (n : StationNo) (st : SvcStatus) (a : BitVec 16) (d : BitVec 64) : s.plays (s.reply n st a d) :=
  offer_plays s _

theorem takeRequest_plays (s : State) (n : StationNo) (g : Byte) (a : BitVec 16) (r : Option SvcStatus) (f : State → State)
    (h : r = none → s.plays (f s)) : s.plays (s.takeRequest n g a r f) := by
  unfold State.takeRequest
  refine plays_ite (fun _ => ?_) fun _ => plays_refl s
  split
  · exact reply_plays s _ _ _ _
  · exact h rfl

theorem enterService_changes (s : State) :
    s.changesOnly [.channels, .inputs, .attention, .confirm, .reader, .station] s.enterService :=
  changes_then (changes_then (changes_widen (cutPulses_changes s)) (setReader_changes _ _)) (setStation_changes _ _)

theorem enableChannel_changes (s : State) (c : Chan) :
    s.changesOnly [.planner, .channels, .attention, .inputs] (s.enableChannel c) := by
  unfold State.enableChannel
  refine changes_ite (fun _ => ?_) fun _ => changes_refl _ s
  dsimp only
  have h : s.changesOnly [.planner, .channels, .attention, .inputs]
      ((s.setChannel c (s.channel c).enable).setInput (s.settings c).input
        ((s.input (s.settings c).input).recheck s.now)) :=
    changes_then (changes_widen (setChannel_changes s c _)) (setInput_changes _ _ _)
  exact changes_ite (fun _ => changes_then h (releaseDeferred_changes _ _))
    fun _ => h

theorem raiseCheck_changes (s : State) (n : StationNo) (x : Byte) : s.changesOnly [.attention] (s.raiseCheck n x) := by
  unfold State.raiseCheck
  split
  · exact raise_changes s _ _
  · exact changes_refl _ s

theorem readStore_plays (s : State) (n : StationNo) (g : Byte) (a : BitVec 16) : s.plays (s.readStore n g a) :=
  takeRequest_plays s _ _ _ _ _ fun _ => reply_plays s _ _ _ _

theorem requestEnterService_plays (s : State) (n : StationNo) (g : Byte) (a : BitVec 16) :
    s.plays (s.requestEnterService n g a) :=
  takeRequest_plays s _ _ _ _ _ fun _ => plays_then (reply_plays s _ _ _ _) (enterService_changes _)

theorem requestClearHalt_plays (s : State) (n : StationNo) (g : Byte) (a : BitVec 16) : s.plays (s.requestClearHalt n g a) :=
  takeRequest_plays s _ _ _ _ _ fun _ => plays_then (reply_plays s _ _ _ _) (enterListening_changes _)

theorem requestEnableChannel_plays (s : State) (n : StationNo) (g : Byte) (a : BitVec 16) :
    s.plays (s.requestEnableChannel n g a) := by
  refine takeRequest_plays s _ _ _ _ _ fun _ => ?_
  split
  · exact plays_trans (plays_of (enableChannel_changes s _)) (reply_plays _ _ _ _ _)
  · exact plays_refl s

theorem requestCheck_plays (s : State) (n : StationNo) (g : Byte) (a : BitVec 16) (x : Byte) :
    s.plays (s.requestCheck n g a x) :=
  takeRequest_plays s _ _ _ _ _ fun _ => plays_trans (plays_of (raiseCheck_changes s _ _)) (reply_plays _ _ _ _ _)

theorem readRoster_plays (s : State) (n : StationNo) (g : Byte) (a : BitVec 16) : s.plays (s.readRoster n g a) := by
  refine takeRequest_plays s _ _ _ _ _ fun _ => ?_
  split
  · exact reply_plays s _ _ _ _
  · exact plays_refl s

theorem readCounters_plays (s : State) (n : StationNo) (g : Byte) (a : BitVec 16) : s.plays (s.readCounters n g a) :=
  takeRequest_plays s _ _ _ _ _ fun _ => reply_plays s _ _ _ _

theorem readChannel_plays (s : State) (n : StationNo) (g : Byte) (a : BitVec 16) : s.plays (s.readChannel n g a) := by
  refine takeRequest_plays s _ _ _ _ _ fun _ => ?_
  split
  · exact reply_plays s _ _ _ _
  · exact plays_refl s

theorem unknownOperation_plays (s : State) (n : StationNo) (g : Byte) (a : BitVec 16) : s.plays (s.unknownOperation n g a) :=
  takeRequest_plays s _ _ _ _ _ fun _ => plays_refl s

/-! ### The port -/

theorem portAct_changes (s : State) (f : Port → Port) : s.changesOnly [.port] (s.portAct f) :=
  changes_ite (fun _ => setPort_changes s _) fun _ => changes_refl _ s

theorem beginAttempt_changes (s : State) : s.changesOnly [.port] s.beginAttempt := by
  unfold State.beginAttempt
  split
  · exact changes_refl _ s
  · exact setPort_changes s _

theorem loseArbitration_changes (s : State) : s.changesOnly [.port] s.loseArbitration := by
  unfold State.loseArbitration
  split
  · exact changes_ite (fun _ => setPort_changes s _) fun _ => changes_refl _ s
  · exact changes_refl _ s

theorem dropped_plays (s : State) (e : TxEntry) : s.plays (s.dropped e) := by
  refine ⟨?_, fun h => ?_⟩ <;> unfold State.dropped
  rotate_left
  · exact handlerAfter_of_not_leaving h (some e)
  intro k hk; cases k <;> first | (exfalso; apply hk; decide) | rfl

theorem muteTest_changes (s : State) (k : Nat) : s.changesOnly [.port, .attention] (s.muteTest k) :=
  changes_ite (fun _ => changes_then (changes_widen (setPort_changes s _)) (raise_changes _ _ _)) fun _ => changes_refl _ s

theorem transmitError_plays (s : State) : s.plays s.transmitError := by
  unfold State.transmitError
  split
  · exact plays_refl s
  · dsimp only
    refine plays_then ?_ (muteTest_changes _ _)
    have h : ∀ p, s.plays (s.setPort p) := fun p => plays_of (setPort_changes s p)
    exact plays_ite (fun _ => plays_trans (h _) (dropped_plays _ _)) fun _ => h _

theorem unmute_changes (s : State) : s.changesOnly [.port] s.unmute := by
  unfold State.unmute
  split
  · exact changes_ite (fun _ => setPort_changes s _) fun _ => changes_refl _ s
  · exact changes_refl _ s

theorem sent_changes (s : State) (e : TxEntry) : s.changesOnly [.port, .station, .attention] (s.sent e) :=
  changes_then (changes_then (changes_widen (setPort_changes s _)) (setStation_changes _ _)) (setAttention_changes _ _)

theorem reported_plays (s : State) (x : Source) : s.plays (s.reported x) :=
  plays_trans (plays_then (plays_of (clearItem_changes s x)) (withdraw_changes _ _))
    (plays_foldl _ answerQuery_plays _ _)

theorem actSent_plays (s : State) (f : TxFrame) : s.plays (s.actSent f) := by
  unfold State.actSent
  split
  · exact actStart_plays s _ _ _ _
  · exact actStop_plays s
  · exact actRelease_plays s _ _
  · exact reported_plays s _
  · exact ⟨changes_widen (setHandler_changes s _), fun h => replyGone_of_not_leaving h⟩
  · exact plays_refl s

theorem frameSent_plays (s : State) : s.plays s.frameSent := by
  unfold State.frameSent
  split
  · exact plays_ite (fun _ => plays_trans (plays_of (sent_changes s _)) (actSent_plays _ _)) fun _ => plays_refl s
  · exact plays_refl s

/-! ### The boundary and the holds -/

theorem nextBeat_changes (s : State) : s.changesOnly [.clock] s.nextBeat := setClock_changes s _

theorem startTest_changes (s : State) :
    s.changesOnly [.planner, .reader, .clock, .station, .port, .attention] s.startTest := by
  unfold State.startTest
  split
  · refine changes_ite (fun _ => ?_) fun _ => changes_refl _ s
    split
    · exact changes_then (changes_widen (setClock_changes s _)) (setStation_changes _ _)
    · exact leaveCountin_changes s
  · exact changes_refl _ s

theorem entryTest_changes (s : State) : s.changesOnly [.clock, .station, .attention] s.entryTest := by
  unfold State.entryTest
  split
  · exact changes_ite (fun _ => changes_then (changes_then (changes_widen (setClock_changes s _)) (setStation_changes _ _))
      (raise_changes _ _ _)) fun _ => changes_refl _ s
  · exact changes_widen (setClock_changes s _)

theorem positionTests_changes (s : State) :
    s.changesOnly [.planner, .reader, .clock, .station, .port, .attention] s.positionTests := by
  unfold State.positionTests
  split
  · exact startTest_changes s
  · exact changes_widen (entryTest_changes s)
  · exact changes_refl _ s

theorem resync_plays (s : State) : s.plays s.resync := by
  unfold State.resync
  have h : s.plays ((s.setClock { s.clock with selfOutliers := 0 }).raise srcSelfResync s.clock.bar) :=
    plays_then (plays_of (setClock_changes s _)) (raise_changes _ _ _)
  exact plays_ite (fun _ => plays_then h (cleanUp_changes _)) fun _ => plays_then h (enterRejoining_changes _ _)

theorem resyncTest_plays (s : State) : s.plays s.resyncTest := by
  unfold State.resyncTest
  have h : ∀ c, s.plays (s.setClock c) := fun c => plays_of (setClock_changes s c)
  exact plays_ite (fun _ => plays_trans (h _) (resync_plays _)) fun _ => h _

theorem queueMark_plays (s : State) : s.plays s.queueMark :=
  plays_ite (fun _ => offer_plays s .mark) fun _ => plays_refl s

theorem clockBoundary_plays (s : State) (l : Int) : s.plays (s.clockBoundary l) := by
  unfold State.clockBoundary
  refine plays_trans (plays_trans ?_ (resyncTest_plays _)) (queueMark_plays _)
  refine plays_then (plays_then ?_ (takeBoundaryEvents_changes _)) (followUpdate_changes _ l)
  exact plays_then (plays_of (nextBeat_changes s)) (positionTests_changes _)

theorem rotorPart_changes (s : State) (n : Nat) : s.changesOnly [.rotor, .reader, .attention] (s.rotorPart n) := by
  unfold State.rotorPart
  split
  all_goals first
    | exact changes_refl _ s
    | exact changes_ite (fun _ => changes_then (changes_widen (takeRotorEvents_changes s)) (stopRotor_changes _)) fun _ =>
        rotorBoundary_changes s n

theorem boundary_plays (s : State) : s.plays s.boundary := by
  unfold State.boundary
  refine plays_then (plays_then (plays_then (plays_then ?_ (projectAll_changes _)) (armAllDue_changes _))
    (dampAll_changes _)) (rotorPart_changes _ _)
  exact plays_trans (plays_of (setRotor_changes s _)) (clockBoundary_plays _ _)

theorem inHold_plays (s : State) (f : HoldState → State) (h : ∀ x, s.plays (f x)) : s.plays (s.inHold f) := by
  unfold State.inHold
  split
  · exact h _
  · exact plays_refl s

theorem ownerRelease_plays (s : State) (h : HoldState) : s.plays (s.ownerRelease h) :=
  plays_trans (plays_of (setClock_changes s _)) (offer_plays _ _)

theorem holdMark_plays (s : State) (h : HoldState) : s.plays (s.holdMark h) :=
  plays_trans (plays_of (setClock_changes s _)) (offer_plays _ _)

/-! ### Life, hits, dampers -/

theorem join_plays (s : State) : s.plays s.join := plays_trans (plays_of (setStation_changes s _)) (offer_plays _ _)

theorem keepAlive_plays (s : State) : s.plays s.keepAlive := by
  unfold State.keepAlive
  have h : ∀ x, s.plays (s.setStation x) := fun x => plays_of (setStation_changes s x)
  exact plays_ite (fun _ => h _) fun _ => plays_trans (h _) (offer_plays _ _)

theorem lapse_changes (s : State) (n : StationNo) :
    s.changesOnly [.clock, .roster, .reader, .rotor, .attention] (s.lapse n) := by
  unfold State.lapse
  split
  · refine changes_ite (fun _ => ?_) fun _ => changes_refl _ s
    dsimp only
    refine changes_then (gs := [.clock, .roster, .reader, .rotor]) ?_ (rejoinTest_changes _)
    exact changes_ite (fun _ => changes_then (changes_widen (setPeer_changes s n _)) (raise_changes _ _ _)) fun _ =>
      changes_widen (setPeer_changes s n _)
  · exact changes_refl _ s

theorem buttonEdge_changes (s : State) (b : Button) (a : Bool) : s.changesOnly [.station] (s.buttonEdge b a) :=
  setStation_changes s _

theorem released_changes (s : State) (b : Button) : s.changesOnly [.station] (s.released b) := setStation_changes s _

theorem pressStart_plays (s : State) : s.plays s.pressStart := by
  unfold State.pressStart
  have h : s.plays (s.pressed .startIn) := plays_of (setStation_changes s _)
  exact plays_ite (fun _ => plays_trans h (offer_plays _ _)) fun _ => h

theorem pressStop_plays (s : State) : s.plays s.pressStop := by
  unfold State.pressStop
  have h : s.plays (s.pressed .stopIn) := plays_of (setStation_changes s _)
  exact plays_ite (fun _ => plays_trans h (offer_plays _ _)) fun _ => h

theorem pulseEnd_changes (s : State) (c : Chan) : s.changesOnly slotFields (s.pulseEnd c) := by
  unfold State.pulseEnd
  split
  · exact changes_ite (fun _ => changes_then (changes_widen (finishPulse_changes s c false)) (slotFreed_changes _)) fun _ =>
      changes_refl _ s
  · exact changes_refl _ s

/-- What a sensor's change reaches. -/
abbrev sensorFields : List Field := [.channels, .inputs, .attention, .confirm, .dampers]

theorem hitAssertion_changes (s : State) (i : Chan) : s.changesOnly pulseFields (s.hitAssertion i) :=
  changes_then (changes_widen (setInput_changes s i _)) (judgeAssertion_changes _ _ _)

theorem assertInput_changes (s : State) (i : Chan) : s.changesOnly sensorFields (s.assertInput i) := by
  unfold State.assertInput
  have h : s.changesOnly sensorFields ((s.setInput i ((s.input i).sample3 true)).sensedBy i true) :=
    changes_then (changes_widen (setInput_changes s i _)) (sensedBy_changes _ i true)
  exact changes_ite (fun _ => changes_then h (hitAssertion_changes _ i)) fun _ => h

theorem hitRelease_changes (s : State) (i : Chan) : s.changesOnly [.inputs, .attention] (s.hitRelease i) := by
  unfold State.hitRelease
  split
  · exact changes_refl _ s
  · dsimp only
    refine changes_then (gs := [.inputs]) ?_ (setInput_changes _ i _)
    split
    · exact changes_ite (fun _ => changes_refl _ s) fun _ => judgeUnmatched_changes s i _
    · exact changes_refl _ s

theorem releaseInput_changes (s : State) (i : Chan) : s.changesOnly sensorFields (s.releaseInput i) := by
  unfold State.releaseInput
  have h : s.changesOnly sensorFields ((s.setInput i ((s.input i).sample3 false)).sensedBy i false) :=
    changes_then (changes_widen (setInput_changes s i _)) (sensedBy_changes _ i false)
  exact changes_ite (fun _ => changes_then h (hitRelease_changes _ i)) fun _ => h

theorem openWindow_changes (s : State) : s.changesOnly [.channels, .inputs, .confirm] s.openWindow := by
  unfold State.openWindow
  split
  · exact changes_refl _ s
  · exact changes_getD
      (fun t ht => changes_then (changes_widen (setConfirm_changes s _)) (windowMatch_changes _ _ t ht))
      (changes_widen (setConfirm_changes s _))

theorem closeWindow_changes (s : State) : s.changesOnly [.channels, .attention, .confirm] s.closeWindow := by
  unfold State.closeWindow
  split
  · exact changes_refl _ s
  · exact changes_then (changes_widen (setConfirm_changes s _)) (missed_changes _ _)

theorem stick_changes (s : State) (i : Chan) : s.changesOnly [.channels, .inputs, .attention] (s.stick i) :=
  changes_then (changes_widen (setInput_changes s i _)) (changes_foldl _ disableStuck_changes _ _)

theorem endPullIn_changes (s : State) (c : Chan) : s.changesOnly slotFields (s.endPullIn c) :=
  changes_then (changes_widen (setDamper_changes s c _)) (slotFreed_changes _)

theorem failCheck_changes (s : State) (c : Chan) : s.changesOnly [.dampers, .attention] (s.failCheck c) := by
  unfold State.failCheck
  split
  · exact changes_ite (fun _ => changes_then (changes_widen (setDamper_changes s c _)) (raise_changes _ _ _)) fun _ =>
      changes_refl _ s
  · exact changes_refl _ s

/-! ### The rail -/

theorem bandChanged_changes (s : State) (b : Band) (x : Nat) : s.changesOnly slotFields (s.bandChanged b x) := by
  unfold State.bandChanged
  split
  · exact changes_widen (raise_changes s _ _)
  · exact changes_then (changes_then (changes_widen (raise_changes s _ _)) (cutPulses_changes _)) (cutDampers_changes _)
  · exact changes_then (changes_then (changes_widen (raise_changes s _ _)) (cutPulses_changes _)) (cutDampers_changes _)
  · exact slotFreed_changes s
  · exact changes_refl _ s

theorem railSample_changes (s : State) (x : Nat) : s.changesOnly (.rail :: slotFields) (s.railSample x) :=
  changes_then (changes_widen (setRail_changes s _)) (bandChanged_changes _ _ _)

end Sys2Proof.Machine
end

