-- ==== Sys2Proof/Laws/Settle.lean ====
section
/-! SUPPORT. What follows every command (`State.settle`): when it does nothing, when it does no more than offer a REPORT, and that it leaves nothing to do. -/

set_option Elab.async false

namespace Sys2Proof.Machine

variable {s t : State} {fs : List Field}

theorem mem_allChannels (c : Chan) : c ∈ allChannels := List.mem_finRange c

/-! ### When nothing is left to do -/

theorem endHold_of_judged (h : s.holdsJudged = true) (i : Chan) : s.endHold i = s := by
  have := (List.all_eq_true.mp h) i (mem_allChannels i)
  unfold State.endHold
  split
  · next l hl =>
    rw [hl] at this
    refine if_neg ?_
    simp only [Bool.or_eq_true] at this
    rintro ⟨h1, h2, h3⟩
    simp_all
  · rfl

theorem endHolds_of_judged (h : s.holdsJudged = true) : s.endHolds = s := by
  unfold State.endHolds
  induction allChannels with
  | nil => rfl
  | cons x xs ih => rw [List.foldl_cons, endHold_of_judged h, ih]

theorem keepCompany_of_settled (h : s.companySettled = true) : s.keepCompany = s := by
  have := of_decide_eq_true (show decide (s.station.companyDeadline = s.companyKept) = true from by
    simpa [State.companySettled] using h)
  unfold State.keepCompany
  rw [← this]
  rfl

theorem offerReport_of_offered (h : s.reportsOffered = true) : s.offerReport = s := by
  simp only [State.reportsOffered, Bool.or_eq_true, beq_iff_eq, Option.isNone_iff_eq_none] at h
  unfold State.offerReport
  split
  · rfl
  · next hn => rcases h with h | h
               · exact absurd (by tauto) hn
               · rw [h]

theorem leaveIfDone_of_ne (h : s.handler ≠ .leaving true) : s.leaveIfDone = s := by
  unfold State.leaveIfDone
  split
  · contradiction
  · rfl

/-- Where nothing ends, nothing else follows a command than the REPORT of R162 and the reset of R14. -/
theorem settle_of_quiet (h1 : s.holdsJudged = true) (h2 : s.finishReady = false) (h3 : s.companySettled = true) :
    s.settle = s.reportThenLeave := by
  unfold State.settle
  rw [h2]
  simp only [Bool.false_eq_true, if_false]
  rw [endHolds_of_judged h1, keepCompany_of_settled h3]
  rfl

/-- Of a part that waits for no LEAVE_SERVICE, no reset comes. -/
theorem reportThenLeave_of_awake (h : s.handler.isLeaving = false) : s.reportThenLeave = s.offerReport := by
  refine leaveIfDone_of_ne ?_
  have : s.offerReport.handler = s.handler := (offerReport_plays s).2 h
  rw [this]
  intro hc
  rw [hc] at h
  cases h

theorem reportThenLeave_of_settled (h : s.settled = true) : s.reportThenLeave = s := by
  simp only [State.settled, Bool.and_eq_true, Bool.not_eq_true', bne_iff_ne] at h
  unfold State.reportThenLeave
  rw [offerReport_of_offered h.1.2, leaveIfDone_of_ne h.2]

theorem settle_of_settled (h : s.settled = true) : s.settle = s := by
  simp only [State.settled, Bool.and_eq_true, Bool.not_eq_true', bne_iff_ne] at h
  obtain ⟨⟨⟨⟨h1, h2⟩, h3⟩, h4⟩, h5⟩ := h
  unfold State.settle
  rw [h2]
  simp only [Bool.false_eq_true, if_false]
  rw [endHolds_of_judged h1, keepCompany_of_settled h3, offerReport_of_offered h4, leaveIfDone_of_ne h5]

/-! ### What the tests read -/

theorem isHitInput_congr (h : t.options = s.options) (i : Chan) : t.isHitInput i = s.isHitInput i := by
  unfold State.isHitInput State.strikersOn State.settings
  rw [h]

theorem drivenOn_mono (h : t.options = s.options) (hp : ∀ c, (s.channel c).pulse.isSome = true → (t.channel c).pulse.isSome = true)
    {i : Chan} (hd : s.drivenOn i = true) : t.drivenOn i = true := by
  unfold State.drivenOn State.strikersOn State.settings at hd ⊢
  rw [h]
  rw [List.any_eq_true] at hd ⊢
  obtain ⟨c, hc, hx⟩ := hd
  exact ⟨c, hc, hp c hx⟩

/-- Holds stay judged where no latch changes and no pulse ends. -/
theorem holdsJudged_of (h : s.holdsJudged = true) (hi : t.inputs = s.inputs) (ho : t.options = s.options)
    (hp : ∀ c, (s.channel c).pulse.isSome = true → (t.channel c).pulse.isSome = true) : t.holdsJudged = true := by
  refine List.all_eq_true.mpr fun i hm => ?_
  have := (List.all_eq_true.mp h) i hm
  have hin : t.input i = s.input i := congrArg (fun v => v[i]) hi
  rw [hin]
  split
  · next l hl =>
    rw [hl] at this
    rw [isHitInput_congr ho]
    simp only [Bool.or_eq_true] at this ⊢
    rcases this with h1 | h1
    · exact Or.inl h1
    · exact Or.inr (drivenOn_mono ho hp h1)
  · rfl

theorem holdsJudged_of_changes (h : s.holdsJudged = true) (c : s.changesOnly fs t) (h1 : Field.inputs ∉ fs := by decide)
    (h2 : Field.options ∉ fs := by decide) (h3 : Field.channels ∉ fs := by decide) : t.holdsJudged = true :=
  holdsJudged_of h (changes_inputs c h1) (changes_options c h2) fun k hk => by rwa [changes_channel c h3]

theorem finishReady_of_changes (c : s.changesOnly fs t) (h1 : Field.station ∉ fs := by decide)
    (h2 : Field.planner ∉ fs := by decide) (h3 : Field.confirm ∉ fs := by decide) : t.finishReady = s.finishReady := by
  unfold State.finishReady
  rw [changes_station c h1, changes_planner c h2, changes_confirm c h3]

/-- The company deadline is none but in REJOINING with no company, where it is a time. -/
theorem companySettled_iff : s.companySettled = true ↔
    if s.station.state = .rejoining ∧ s.hasCompany = false then s.station.companyDeadline.isSome = true
    else s.station.companyDeadline = none := by
  unfold State.companySettled State.companyKept
  simp only [beq_iff_eq, Bool.not_eq_true']
  split
  · cases s.station.companyDeadline <;> simp
  · exact Iff.rfl

theorem companySettled_congr (hs : t.station = s.station) (hc : t.hasCompany = s.hasCompany)
    (h : s.companySettled = true) : t.companySettled = true := by
  rw [companySettled_iff] at h ⊢
  rwa [hs, hc]

theorem hasCompany_congr (hs : t.station.activePiece = s.station.activePiece) (hr : t.roster = s.roster) :
    t.hasCompany = s.hasCompany := by
  unfold State.hasCompany
  rw [hs, hr]

theorem companySettled_of_changes (h : s.companySettled = true) (c : s.changesOnly fs t) (h1 : Field.station ∉ fs := by decide)
    (h2 : Field.roster ∉ fs := by decide) : t.companySettled = true :=
  companySettled_congr (changes_station c h1) (hasCompany_congr (by rw [changes_station c h1]) (changes_roster c h2)) h

theorem firstQualifying_congr (hi : t.attention.items = s.attention.items) (ho : t.options = s.options) :
    t.firstQualifying = s.firstQualifying := by
  unfold State.firstQualifying State.item
  rw [hi, ho]

theorem reportsOffered_of_changes (h : s.reportsOffered = true) (c : s.changesOnly fs t) (h1 : Field.station ∉ fs := by decide)
    (h2 : Field.port ∉ fs := by decide) (h3 : Field.attention ∉ fs := by decide) (h4 : Field.options ∉ fs := by decide) :
    t.reportsOffered = true := by
  unfold State.reportsOffered at h ⊢
  rwa [changes_station c h1, changes_port c h2, changes_attention c h3,
    firstQualifying_congr (by rw [changes_attention c h3]) (changes_options c h4)]

/-- A change that reaches none of the tests leaves a settled state settled. -/
theorem settled_of_changes (h : s.settled = true) (c : s.changesOnly fs t) (h1 : Field.inputs ∉ fs := by decide)
    (h2 : Field.options ∉ fs := by decide) (h3 : Field.channels ∉ fs := by decide) (h4 : Field.station ∉ fs := by decide)
    (h5 : Field.planner ∉ fs := by decide) (h6 : Field.confirm ∉ fs := by decide) (h7 : Field.roster ∉ fs := by decide)
    (h8 : Field.port ∉ fs := by decide) (h9 : Field.attention ∉ fs := by decide) (h10 : Field.handler ∉ fs := by decide) :
    t.settled = true := by
  simp only [State.settled, Bool.and_eq_true, Bool.not_eq_true', bne_iff_ne] at h ⊢
  obtain ⟨⟨⟨⟨k1, k2⟩, k3⟩, k4⟩, k5⟩ := h
  exact ⟨⟨⟨⟨holdsJudged_of_changes k1 c h1 h2 h3, by rw [finishReady_of_changes c h4 h5 h6]; exact k2⟩,
    companySettled_of_changes k3 c h4 h7⟩, reportsOffered_of_changes k4 c h4 h8 h9 h2⟩,
    by rw [changes_handler c h10]; exact k5⟩

/-! ### `settle` leaves nothing to do -/

theorem finishDone_not_ready (s : State) : s.finishDone.finishReady = false := by
  unfold State.finishReady
  have : s.finishDone.station.state = .ready := rfl
  rw [this]
  rfl

theorem judgeUnmatched_options (s : State) (i : Chan) (l : Latch) : (s.judgeUnmatched i l).options = s.options := by
  exact changes_options (judgeUnmatched_changes s i l)

theorem judgeUnmatched_channels (s : State) (i : Chan) (l : Latch) : (s.judgeUnmatched i l).channels = s.channels := by
  exact changes_channels (judgeUnmatched_changes s i l)

/-- The input of a judged hold keeps no unused edge; the other inputs stand as they were. -/
theorem judgeUnmatched_input (s : State) (i j : Chan) (l : Latch) :
    (s.judgeUnmatched i l).input j = if i = j then (s.input i).useEdge (s.inputMode i) else s.input j := by
  have h : ∀ x : State, x.inputs = s.inputs.set i ((s.input i).useEdge (s.inputMode i)) →
      x.input j = if i = j then (s.input i).useEdge (s.inputMode i) else s.input j := by
    intro x hx
    unfold State.input
    rw [hx]
    by_cases hij : i = j
    · subst hij
      simp [State.input]
    · rw [if_neg hij]
      simp only [Fin.getElem_fin]
      rw [Vector.getElem_set_ne]
      exact fun hc => hij (Fin.ext hc)
  unfold State.judgeUnmatched
  dsimp only
  split
  · split <;> exact h _ rfl
  · exact h _ rfl

theorem useEdge_used (x : SensorInput) (m : SensorMode) (l : Latch) (h : (x.useEdge m).latch = some l) : l.edgeUsed = true := by
  cases m with
  | edge => cases h
  | edgeLevel =>
    simp only [SensorInput.useEdge, Option.map_eq_some_iff] at h
    obtain ⟨k, _, rfl⟩ := h
    rfl

/-- The input is judged: its latch waits for nothing. -/
def State.judgedAt (s : State) (i : Chan) : Prop :=
  ∀ l, (s.input i).latch = some l → l.edgeUsed = true ∨ s.isHitInput i = false ∨ s.drivenOn i = true

theorem drivenOn_congr (h : t.options = s.options) (hc : t.channels = s.channels) (i : Chan) : t.drivenOn i = s.drivenOn i := by
  unfold State.drivenOn State.strikersOn State.settings State.channel
  rw [h, hc]

theorem endHold_options (s : State) (i : Chan) : (s.endHold i).options = s.options := by
  unfold State.endHold
  split
  · split
    · exact judgeUnmatched_options s i _
    · rfl
  · rfl

theorem endHold_channels (s : State) (i : Chan) : (s.endHold i).channels = s.channels := by
  unfold State.endHold
  split
  · split
    · exact judgeUnmatched_channels s i _
    · rfl
  · rfl

theorem endHold_judged (s : State) (i : Chan) : (s.endHold i).judgedAt i := by
  unfold State.endHold
  split
  · next l hl =>
    split
    · intro k hk
      rw [judgeUnmatched_input, if_pos rfl] at hk
      exact Or.inl (useEdge_used _ _ _ hk)
    · next hn =>
      intro k hk
      rw [hl] at hk
      cases hk
      simp only [not_and, Bool.not_eq_true'] at hn
      by_cases h1 : l.edgeUsed = true
      · exact Or.inl h1
      · by_cases h2 : s.isHitInput i = true
        · refine Or.inr (Or.inr ?_)
          have := hn (by simpa using h1) h2
          simpa using this
        · exact Or.inr (Or.inl (by simpa using h2))
  · next hl =>
    intro k hk
    rw [hl] at hk
    cases hk

theorem endHold_keeps (s : State) (i j : Chan) (h : s.judgedAt j) : (s.endHold i).judgedAt j := by
  by_cases hij : i = j
  · exact hij ▸ endHold_judged s i
  · intro k hk
    have hin : (s.endHold i).input j = s.input j := by
      unfold State.endHold
      split
      · split
        · rw [judgeUnmatched_input, if_neg hij]
        · rfl
      · rfl
    rw [hin] at hk
    rw [isHitInput_congr (endHold_options s i), drivenOn_congr (endHold_options s i) (endHold_channels s i)]
    exact h k hk

theorem foldl_endHold_keeps (xs : List Chan) (s : State) (j : Chan) (h : s.judgedAt j) :
    (xs.foldl State.endHold s).judgedAt j := by
  induction xs generalizing s with
  | nil => exact h
  | cons x xs ih => exact ih _ (endHold_keeps s x j h)

theorem foldl_endHold_judged (xs : List Chan) (s : State) (j : Chan) (h : j ∈ xs) : (xs.foldl State.endHold s).judgedAt j := by
  induction xs generalizing s with
  | nil => cases h
  | cons x xs ih =>
    rcases List.mem_cons.mp h with rfl | h
    · exact foldl_endHold_keeps xs _ _ (endHold_judged s _)
    · exact ih _ h

theorem endHolds_judged (s : State) : s.endHolds.holdsJudged = true := by
  refine List.all_eq_true.mpr fun i hm => ?_
  have := foldl_endHold_judged allChannels s i hm
  split
  · next l hl =>
    rcases this l hl with h | h | h
    · simp [h]
    · have h' : s.endHolds.isHitInput i = false := h
      simp [h']
    · have h' : s.endHolds.drivenOn i = true := h
      simp [h']
  · rfl

theorem keepCompany_settled (s : State) : s.keepCompany.companySettled = true := by
  rw [companySettled_iff]
  have h1 : s.keepCompany.station.state = s.station.state := rfl
  have h2 : s.keepCompany.hasCompany = s.hasCompany := rfl
  have h3 : s.keepCompany.station.companyDeadline = s.companyKept := rfl
  rw [h1, h2, h3]
  unfold State.companyKept
  split
  · next h => simp [h.1, h.2]
  · next h => rw [if_neg (by simpa using h)]

theorem keepCompany_finishReady (s : State) : s.keepCompany.finishReady = s.finishReady := rfl

theorem insertTx_any (e : TxEntry) (p : TxEntry → Bool) (h : p e = true) (xs : List TxEntry) : (insertTx e xs).any p = true := by
  induction xs with
  | nil => simp [insertTx, h]
  | cons x xs ih => unfold insertTx; split <;> simp [h, ih]

/-- After R162 has been followed, a spontaneous REPORT stands in the queue, or the hold-off flag is set, or there is no item to report. -/
theorem offerReport_offered (s : State) : s.offerReport.reportsOffered = true := by
  unfold State.offerReport
  split
  · next h =>
    unfold State.reportsOffered
    simp only [Bool.or_eq_true, beq_iff_eq]
    tauto
  · split
    · next x hx =>
      unfold State.reportsOffered
      simp only [Bool.or_eq_true]
      unfold State.offer Port.offer
      simp only [TxFrame.isMark, Bool.false_and, Bool.false_eq_true, if_false]
      split
      · exact Or.inl (Or.inl (Or.inr (by
          simp only [Port.hasSpontaneous, Port.hasUnsent, Bool.or_eq_true]
          exact Or.inl (insertTx_any _ _ rfl _))))
      · split
        · split
          · exact Or.inl (Or.inl (Or.inr (by
              simp only [Port.hasSpontaneous, Port.hasUnsent, Bool.or_eq_true]
              exact Or.inl (insertTx_any _ _ rfl _))))
          · exact Or.inl (Or.inr rfl)
        · exact Or.inl (Or.inr rfl)
    · next hx =>
      unfold State.reportsOffered
      rw [hx]
      simp

/-- Every state that `settle` leaves is settled. -/
theorem settle_settled (s : State) : s.settle.settled = true := by
  have key : ∀ e : State, e.finishReady = false → e.endHolds.keepCompany.offerReport.leaveIfDone.settled = true := by
    intro e he
    have c1 : e.changesOnly [.inputs, .attention] e.endHolds := endHolds_changes e
    have c2 : e.endHolds.changesOnly [.station] e.endHolds.keepCompany := keepCompany_changes _
    have c3 := offerReport_changes e.endHolds.keepCompany
    unfold State.leaveIfDone
    split
    · simp only [State.settled, Bool.and_eq_true, Bool.not_eq_true', bne_iff_ne]
      refine ⟨⟨⟨⟨?_, rfl⟩, rfl⟩, rfl⟩, by intro h; cases h⟩
      refine List.all_eq_true.mpr fun i _ => ?_
      have : ((e.endHolds.keepCompany.offerReport.partReset .service).input i).latch = none := by
        simp [State.input, State.partReset, SensorInput.atReset]
      rw [this]
    · next hl =>
      simp only [State.settled, Bool.and_eq_true, Bool.not_eq_true', bne_iff_ne]
      refine ⟨⟨⟨⟨?_, ?_⟩, ?_⟩, offerReport_offered _⟩, fun h => hl h⟩
      · exact holdsJudged_of_changes (holdsJudged_of_changes (endHolds_judged e) c2) c3
      · rw [finishReady_of_changes c3]
        rw [← he, ← finishReady_of_changes c1]
        exact keepCompany_finishReady _
      · exact companySettled_of_changes (keepCompany_settled _) c3
  unfold State.settle
  dsimp only
  split
  · exact key _ (finishDone_not_ready s)
  · next h => exact key _ (by simpa using h)

end Sys2Proof.Machine
end

