-- ==== Sys2Proof/Laws/Run.lean ====
section
/-! SUPPORT. What a command answers: always a next state; and the ways in which `run` unfolds. -/

set_option Elab.async false

namespace Sys2Proof.Machine

variable {s t : State} {fs : List Field}

/-- A part held in reset does nothing. -/
theorem run_held (h : s.held = true) (u : Nat) (f : State → State) : run u f s = .next s := by
  unfold run
  rw [if_pos h]

theorem run_awake (h : s.held = false) (u : Nat) (f : State → State) : run u f s = .next (f (s.advance u)).settle := by
  unfold run
  rw [h]
  exact if_neg Bool.false_ne_true

theorem run_answers (u : Nat) (f : State → State) (s : State) : ∃ t, run u f s = .next t := by
  unfold run
  split
  · exact ⟨_, rfl⟩
  · exact ⟨_, rfl⟩

/-- Every command answers a next state. -/
theorem exec_answers (c : Instr) (s : State) : ∃ t, exec c s = .next t := by
  cases c with
  | resetNAssert u => exact ⟨_, rfl⟩
  | supplyFall u => exact ⟨_, rfl⟩
  | retentionLoss => exact ⟨_, rfl⟩
  | resetNRelease straps =>
    change ∃ t, execResetNRelease straps s = .next t
    unfold execResetNRelease
    split <;> exact ⟨_, rfl⟩
  | supplyRise straps =>
    change ∃ t, execSupplyRise straps s = .next t
    unfold execSupplyRise
    split <;> exact ⟨_, rfl⟩
  | buttonInputEdge u b level =>
    change ∃ t, execButtonInputEdge u b level s = .next t
    unfold execButtonInputEdge
    split
    · exact ⟨_, rfl⟩
    · exact run_answers _ _ _
  | validationComplete u => exact (show ∃ t, execValidationComplete u s = .next t from run_answers u _ s)
  | joinDeadline u => exact (show ∃ t, execJoinDeadline u s = .next t from run_answers u _ s)
  | keepaliveDeadline u => exact (show ∃ t, execKeepaliveDeadline u s = .next t from run_answers u _ s)
  | companyDeadline u => exact (show ∃ t, execCompanyDeadline u s = .next t from run_answers u _ s)
  | presenceDeadline u peer => exact (show ∃ t, execPresenceDeadline u peer s = .next t from run_answers u _ s)
  | startInPress u => exact (show ∃ t, execStartInPress u s = .next t from run_answers u _ s)
  | stopInPress u => exact (show ∃ t, execStopInPress u s = .next t from run_answers u _ s)
  | buttonReleaseQualified u button => exact (show ∃ t, execButtonReleaseQualified u button s = .next t from run_answers u _ s)
  | startFrame u sender piece startBar lead period => exact (show ∃ t, execStartFrame u sender piece startBar lead period s = .next t from run_answers u _ s)
  | stopFrame u sender reason => exact (show ∃ t, execStopFrame u sender reason s = .next t from run_answers u _ s)
  | releaseFrame u sender piece hold => exact (show ∃ t, execReleaseFrame u sender piece hold s = .next t from run_answers u _ s)
  | markFrame u sender pos len bar state piece hold => exact (show ∃ t, execMarkFrame u sender pos len bar state piece hold s = .next t from run_answers u _ s)
  | announceFrame u sender cls state piece cause => exact (show ∃ t, execAnnounceFrame u sender cls state piece cause s = .next t from run_answers u _ s)
  | muteFrame u sender mask piece startBar stopBar onOff => exact (show ∃ t, execMuteFrame u sender mask piece startBar stopBar onOff s = .next t from run_answers u _ s)
  | queryFrame u sender target => exact (show ∃ t, execQueryFrame u sender target s = .next t from run_answers u _ s)
  | reportFrame u sender source level count detail queried => exact (show ∃ t, execReportFrame u sender source level count detail queried s = .next t from run_answers u _ s)
  | svcReplyFrame u sender requester status addr data => exact (show ∃ t, execSvcReplyFrame u sender requester status addr data s = .next t from run_answers u _ s)
  | readStore u sender target addr => exact (show ∃ t, execReadStore u sender target addr s = .next t by unfold execReadStore serviceFrame; exact run_answers u _ s)
  | programStore u sender target addr data => exact (show ∃ t, execProgramStore u sender target addr data s = .next t by unfold execProgramStore serviceFrame; exact run_answers u _ s)
  | programComplete u => exact (show ∃ t, execProgramComplete u s = .next t from run_answers u _ s)
  | eraseSector u sender target addr => exact (show ∃ t, execEraseSector u sender target addr s = .next t by unfold execEraseSector serviceFrame; exact run_answers u _ s)
  | eraseComplete u => exact (show ∃ t, execEraseComplete u s = .next t from run_answers u _ s)
  | enterService u sender target addr => exact (show ∃ t, execEnterService u sender target addr s = .next t by unfold execEnterService serviceFrame; exact run_answers u _ s)
  | leaveService u sender target addr => exact (show ∃ t, execLeaveService u sender target addr s = .next t by unfold execLeaveService serviceFrame; exact run_answers u _ s)
  | partReset u sender target addr => exact (show ∃ t, execPartReset u sender target addr s = .next t by unfold execPartReset serviceFrame; exact run_answers u _ s)
  | clearHalt u sender target addr => exact (show ∃ t, execClearHalt u sender target addr s = .next t by unfold execClearHalt serviceFrame; exact run_answers u _ s)
  | enableChannel u sender target addr => exact (show ∃ t, execEnableChannel u sender target addr s = .next t by unfold execEnableChannel serviceFrame; exact run_answers u _ s)
  | check u sender target addr n => exact (show ∃ t, execCheck u sender target addr n s = .next t by unfold execCheck serviceFrame; exact run_answers u _ s)
  | readRoster u sender target addr => exact (show ∃ t, execReadRoster u sender target addr s = .next t by unfold execReadRoster serviceFrame; exact run_answers u _ s)
  | readCounters u sender target addr => exact (show ∃ t, execReadCounters u sender target addr s = .next t by unfold execReadCounters serviceFrame; exact run_answers u _ s)
  | readChannel u sender target addr => exact (show ∃ t, execReadChannel u sender target addr s = .next t by unfold execReadChannel serviceFrame; exact run_answers u _ s)
  | unknownSvcOperation u sender target op addr => exact (show ∃ t, execUnknownSvcOperation u sender target op addr s = .next t by unfold execUnknownSvcOperation serviceFrame; exact run_answers u _ s)
  | frameCrcError m => exact (show ∃ t, execFrameCrcError m s = .next t from run_answers m.time _ s)
  | frameFramingError m => exact (show ∃ t, execFrameFramingError m s = .next t from run_answers m.time _ s)
  | frameUnknownKind m => exact (show ∃ t, execFrameUnknownKind m s = .next t from run_answers m.time _ s)
  | txAttemptStart u recessiveSince => exact (show ∃ t, execTxAttemptStart u recessiveSince s = .next t from run_answers u _ s)
  | arbitrationLoss u => exact (show ∃ t, execArbitrationLoss u s = .next t from run_answers u _ s)
  | txError u => exact (show ∃ t, execTxError u s = .next t from run_answers u _ s)
  | muteEnd u => exact (show ∃ t, execMuteEnd u s = .next t from run_answers u _ s)
  | frameSent u => exact (show ∃ t, execFrameSent u s = .next t from run_answers u _ s)
  | beatBoundary u => exact (show ∃ t, execBeatBoundary u s = .next t from run_answers u _ s)
  | holdReached u => exact (show ∃ t, execHoldReached u s = .next t from run_answers u _ s)
  | ownerDeadline u => exact (show ∃ t, execOwnerDeadline u s = .next t from run_answers u _ s)
  | holdLimit u => exact (show ∃ t, execHoldLimit u s = .next t from run_answers u _ s)
  | holdMarkDeadline u => exact (show ∃ t, execHoldMarkDeadline u s = .next t from run_answers u _ s)
  | endReached u => exact (show ∃ t, execEndReached u s = .next t from run_answers u _ s)
  | readerTakeItem u => exact (show ∃ t, execReaderTakeItem u s = .next t from run_answers u _ s)
  | scanRecord u => exact (show ∃ t, execScanRecord u s = .next t from run_answers u _ s)
  | armMoment u => exact (show ∃ t, execArmMoment u s = .next t from run_answers u _ s)
  | fireTimeReached u channel => exact (show ∃ t, execFireTimeReached u channel s = .next t from run_answers u _ s)
  | claimLateDrop u => exact (show ∃ t, execClaimLateDrop u s = .next t from run_answers u _ s)
  | pulseEnd u channel => exact (show ∃ t, execPulseEnd u channel s = .next t from run_answers u _ s)
  | recoveryEnd u channel => exact (show ∃ t, execRecoveryEnd u channel s = .next t from run_answers u _ s)
  | sensorAssertion u input => exact (show ∃ t, execSensorAssertion u input s = .next t from run_answers u _ s)
  | sensorRelease u input => exact (show ∃ t, execSensorRelease u input s = .next t from run_answers u _ s)
  | windowOpen u => exact (show ∃ t, execWindowOpen u s = .next t from run_answers u _ s)
  | windowClose u => exact (show ∃ t, execWindowClose u s = .next t from run_answers u _ s)
  | stuckDeadline u input => exact (show ∃ t, execStuckDeadline u input s = .next t from run_answers u _ s)
  | dampApply u channel => exact (show ∃ t, execDampApply u channel s = .next t from run_answers u _ s)
  | pullInEnd u channel => exact (show ∃ t, execPullInEnd u channel s = .next t from run_answers u _ s)
  | damperCheckDeadline u channel => exact (show ∃ t, execDamperCheckDeadline u channel s = .next t from run_answers u _ s)
  | tachEdge u => exact (show ∃ t, execTachEdge u s = .next t from run_answers u _ s)
  | railSample u sample => exact (show ∃ t, execRailSample u sample s = .next t from run_answers u _ s)
  | frameLeadingEdge m => exact (show ∃ t, execFrameLeadingEdge m s = .next t from run_answers m.time _ s)

/-! ### A steady part -/

theorem steady_held (h : s.steady = true) : s.held = false := by
  simp only [State.steady, Bool.and_eq_true, Bool.not_eq_true'] at h
  exact h.1.1

theorem steady_settled (h : s.steady = true) : s.settled = true := by
  simp only [State.steady, Bool.and_eq_true, Bool.not_eq_true'] at h
  exact h.1.2

theorem steady_reference (h : s.steady = true) : s.referenceReady = false := by
  simp only [State.steady, Bool.and_eq_true, Bool.not_eq_true'] at h
  exact h.2

theorem settled_parts (h : s.settled = true) :
    s.holdsJudged = true ∧ s.finishReady = false ∧ s.companySettled = true ∧ s.reportsOffered = true
      ∧ s.handler ≠ .leaving true := by
  simp only [State.settled, Bool.and_eq_true, Bool.not_eq_true', bne_iff_ne] at h
  exact ⟨h.1.1.1.1, h.1.1.1.2, h.1.1.2, h.1.2, h.2⟩

theorem advance_settled (h : s.settled = true) (u : Nat) : (s.advance u).settled = true :=
  settled_of_changes h (advance_changes s u)

/-- A command with an effect that leaves nothing to do answers that effect. -/
theorem run_of_settled (h : s.steady = true) (u : Nat) (f : State → State) (hf : (f (s.advance u)).settled = true) :
    run u f s = .next (f (s.advance u)) := by
  rw [run_awake (steady_held h), settle_of_settled hf]

/-- A command with no effect passes the time. -/
theorem run_of_same (h : s.steady = true) (u : Nat) (f : State → State) (hf : f (s.advance u) = s.advance u) :
    run u f s = .next (s.advance u) := by
  rw [run_of_settled h u f (by rw [hf]; exact advance_settled (steady_settled h) u), hf]

end Sys2Proof.Machine
end

