-- ==== Sys2Proof/Laws/Frames.lean ====
section
/-! SUPPORT. What a command leaves settled, and what a frame of a peer comes to before it acts (`State.heard`). -/

set_option Elab.async false

namespace Sys2Proof.Machine

variable {s t : State}

/-! ### Settled states -/

/-- From `s` to `t` nothing has changed that could end a hold, a piece or the company of the station. -/
structure State.Still (s t : State) : Prop where
  latch : ∀ i, (t.input i).latch = (s.input i).latch := by intro i; rfl
  options : t.options = s.options := by rfl
  pulse : ∀ c, (s.channel c).pulse.isSome = true → (t.channel c).pulse.isSome = true := by intro c h; exact h
  state : t.station.state = s.station.state := by rfl
  finishing : t.station.finishing = s.station.finishing := by rfl
  deadline : t.station.companyDeadline = s.station.companyDeadline := by rfl
  queue : t.planner.queue = [] → s.planner.queue = [] := by intro h; exact h
  confirm : t.confirm = [] → s.confirm = [] := by intro h; exact h
  company : t.hasCompany = s.hasCompany := by rfl

theorem still_holds (h : s.Still t) (k : s.holdsJudged = true) : t.holdsJudged = true := by
  refine List.all_eq_true.mpr fun i hm => ?_
  have := (List.all_eq_true.mp k) i hm
  rw [h.latch i]
  split
  · next l hl =>
    rw [hl] at this
    rw [isHitInput_congr h.options]
    simp only [Bool.or_eq_true] at this ⊢
    rcases this with h1 | h1
    · exact Or.inl h1
    · exact Or.inr (drivenOn_mono h.options h.pulse h1)
  · rfl

theorem still_finish (h : s.Still t) (k : s.finishReady = false) : t.finishReady = false := by
  unfold State.finishReady at k ⊢
  rw [h.state, h.finishing]
  by_contra hc
  simp only [Bool.not_eq_false, Bool.and_eq_true, List.isEmpty_iff] at hc
  have hq := h.queue hc.1.2
  have hcf := h.confirm hc.2
  rw [hq, hcf] at k
  simp [hc.1.1.1, hc.1.1.2] at k

theorem still_company (h : s.Still t) (k : s.companySettled = true) : t.companySettled = true := by
  rw [companySettled_iff] at k ⊢
  rwa [h.state, h.company, h.deadline]

/-- What follows a command that leaves the part still is the REPORT of R162 and the reset of R14. -/
theorem settle_of_still (k : s.settled = true) (h : s.Still t) : t.settle = t.reportThenLeave := by
  obtain ⟨k1, k2, k3, _, _⟩ := settled_parts k
  exact settle_of_quiet (still_holds h k1) (still_finish h k2) (still_company h k3)

theorem settled_of_still (k : s.settled = true) (h : s.Still t) (hr : t.reportsOffered = true)
    (hh : t.handler ≠ .leaving true) : t.settled = true := by
  obtain ⟨k1, k2, k3, _, _⟩ := settled_parts k
  simp only [State.settled, Bool.and_eq_true, Bool.not_eq_true', bne_iff_ne]
  exact ⟨⟨⟨⟨still_holds h k1, still_finish h k2⟩, still_company h k3⟩, hr⟩, hh⟩

/-- Reports stay offered where the queue, the items and the station's state do not change. -/
theorem reportsOffered_congr (h : s.reportsOffered = true) (hs : t.station.state = s.station.state)
    (hp : t.port.hasSpontaneous = s.port.hasSpontaneous) (ha : t.attention = s.attention) (ho : t.options = s.options) :
    t.reportsOffered = true := by
  unfold State.reportsOffered at h ⊢
  rwa [hs, hp, ha, firstQualifying_congr (by rw [ha]) ho]

/-- A command whose effect leaves the part still, and no new REPORT to offer, answers that effect. -/
theorem run_of_still (h : s.steady = true) (u : Nat) (f : State → State) (hs : (s.advance u).Still (f (s.advance u)))
    (hr : (f (s.advance u)).reportsOffered = true) (hh : (f (s.advance u)).handler = s.handler) :
    run u f s = .next (f (s.advance u)) := by
  refine run_of_settled h u f (settled_of_still (advance_settled (steady_settled h) u) hs hr ?_)
  rw [hh]
  exact (settled_parts (steady_settled h)).2.2.2.2

/-- A command whose effect leaves the part still answers that effect with its REPORT. -/
theorem run_of_still_report (h : s.steady = true) (u : Nat) (f : State → State)
    (hs : (s.advance u).Still (f (s.advance u))) : run u f s = .next (f (s.advance u)).reportThenLeave := by
  rw [run_awake (steady_held h), settle_of_still (advance_settled (steady_settled h) u) hs]

/-! ### The rejoin reference -/

theorem qualifyingMark_later {e f : RosterEntry} (hp : t.station.activePiece = s.station.activePiece) (ho : t.options = s.options)
    (hn : s.now ≤ t.now) (hpl : f.playingPeer s.station.activePiece = e.playingPeer s.station.activePiece)
    (hm : f.lastMark = e.lastMark) (h : (t.qualifyingMark f).isSome = true) : (s.qualifyingMark e).isSome = true := by
  unfold State.qualifyingMark at h ⊢
  rw [hp, ho, hpl, hm] at h
  split at h
  · next hq =>
    rw [if_pos hq]
    cases hl : e.lastMark with
    | none => rw [hl] at h; cases h
    | some m =>
      rw [hl] at h
      simp only [Option.filter, Bool.and_eq_true, decide_eq_true_eq] at h ⊢
      split at h
      · next hq2 => rw [if_pos ⟨hq2.1, le_trans (Int.sub_le_sub_right hn _) hq2.2⟩]; rfl
      · cases h
  · cases h

/-- Two roster entries that the rejoin reference cannot tell apart. -/
def sameForReference (p : Option Piece) (a b : Option RosterEntry) : Prop :=
  match a, b with
  | some e, some f => f.playingPeer p = e.playingPeer p ∧ f.lastMark = e.lastMark
  | none, some f => f.playingPeer p = false
  | none, none => True
  | some _, none => False

theorem filterMap_length_le {α β γ : Type} (f : α → Option β) (g : α → Option γ) (h : ∀ a, (g a).isSome = true → (f a).isSome = true)
    (xs : List α) : (xs.filterMap g).length ≤ (xs.filterMap f).length := by
  induction xs with
  | nil => exact Nat.le_refl _
  | cons x xs ih =>
    rw [List.filterMap_cons, List.filterMap_cons]
    cases hg : g x with
    | none =>
      cases hf : f x with
      | none => exact ih
      | some _ => exact Nat.le_succ_of_le ih
    | some _ =>
      have := h x (by rw [hg]; rfl)
      cases hf : f x with
      | none => rw [hf] at this; cases this
      | some _ => exact Nat.succ_le_succ ih

/-- A reference that could not be taken cannot be taken later with the same peers and marks. -/
theorem referenceReady_later (h : s.referenceReady = false) (hst : t.station.state = s.station.state)
    (hp : t.station.activePiece = s.station.activePiece) (hs : t.clock.isSet = s.clock.isSet) (ho : t.options = s.options)
    (hn : s.now ≤ t.now) (hr : ∀ n, sameForReference s.station.activePiece (s.peer n) (t.peer n)) : t.referenceReady = false := by
  have hplay : t.playingPeers = s.playingPeers := by
    unfold State.playingPeers
    congr 1
    refine List.filter_congr fun n _ => ?_
    have := hr n
    rw [hp]
    generalize s.peer n = a at this
    generalize t.peer n = b at this
    unfold sameForReference at this
    cases a <;> cases b <;> dsimp only at this ⊢
    · exact this
    · exact this.1
  have hlen : t.referenceMarks.length ≤ s.referenceMarks.length := by
    unfold State.referenceMarks
    refine filterMap_length_le _ _ (fun n hn2 => ?_) _
    have := hr n
    cases ha : s.peer n <;> cases hb : t.peer n <;> rw [ha, hb] at this
    · rw [hb] at hn2; cases hn2
    · rename_i f
      rw [hb] at hn2
      simp only [Option.bind_some, Option.isSome_map] at hn2
      unfold State.qualifyingMark at hn2
      rw [hp, show f.playingPeer s.station.activePiece = false from this] at hn2
      cases hn2
    · exact this.elim
    · rw [hb] at hn2
      simp only [Option.bind_some, Option.isSome_map] at hn2 ⊢
      exact qualifyingMark_later hp ho hn this.1 this.2 hn2
  unfold State.referenceReady at h ⊢
  rw [hst, hs, hplay]
  by_contra hc
  simp only [Bool.not_eq_false, Bool.and_eq_true, decide_eq_true_eq] at hc
  rw [hc.1.1.1, hc.1.1.2] at h
  have h1 := hc.1.2
  have h2 : min 2 s.playingPeers ≤ s.referenceMarks.length := Nat.le_trans hc.2 hlen
  simp [h1] at h
  omega

theorem rejoinTest_of_not_ready (h : s.referenceReady = false) : s.rejoinTest = s := by
  unfold State.rejoinTest
  rw [h]
  rfl

theorem referenceReady_of_state (h : s.station.state ≠ .rejoining) : s.referenceReady = false := by
  unfold State.referenceReady
  have : (s.station.state == StationState.rejoining) = false := by simpa using h
  rw [this]
  rfl

/-! ### A frame of a peer -/

/-- What a heard frame leaves of the port (R146, R147, R155). -/
theorem received_portHeard (s : State) (u : Nat) :
    s.port.received (s.at u) s.options.bitTime = s.portHeard u := by
  unfold Port.received Port.frameEnds Port.waitsFrom
  rw [stopBitFrom_quietGap]
  rfl

theorem lineQuiet_heard (s : State) (u : Nat) : (s.advance u).lineQuiet = (s.advance u).setPort (s.portHeard u) :=
  congrArg (s.advance u).setPort (received_portHeard s u)

theorem touch_heard (s : State) (u : Nat) (n : StationNo) : ((s.advance u).lineQuiet).touch n = s.heard u n := by
  unfold State.touch State.touchedEntry State.heard refreshed
  have : ((s.advance u).lineQuiet).peer n = s.peer n := rfl
  rw [this, lineQuiet_heard]
  cases s.peer n <;> rfl

theorem heard_peer (s : State) (u : Nat) (n m : StationNo) :
    (s.heard u n).peer m = if n = m then some (refreshed s.options (s.at u) n (s.peer n)) else s.peer m := by
  unfold State.heard State.peer
  by_cases h : n = m
  · subst h
    simp
  · rw [if_neg h]
    simp only [Fin.getElem_fin]
    rw [Vector.getElem_set_ne]
    exact fun hc => h (Fin.ext hc)

theorem at_eq (s : State) (u : Nat) : (s.advance u).now = s.at u := rfl

theorem now_le_at (s : State) (u : Nat) : s.now ≤ s.at u := le_max_left _ _

/-- A refreshed entry announces and marks what it did. -/
theorem refreshed_same (o : Options) (now : Time) (n : StationNo) (p : Option Piece) (e : Option RosterEntry) :
    sameForReference p e (some (refreshed o now n e)) := by
  cases e with
  | none => rfl
  | some e => exact ⟨rfl, rfl⟩

theorem heard_reference (h : s.steady = true) (u : Nat) (n : StationNo) : (s.heard u n).referenceReady = false := by
  refine referenceReady_later (steady_reference h) rfl rfl rfl rfl (now_le_at s u) fun m => ?_
  rw [heard_peer]
  split
  · next hm => subst hm; exact refreshed_same _ _ _ _ _
  · unfold sameForReference; cases s.peer m <;> trivial

theorem any_set_eq {α : Type} {k : Nat} (v : Vector α k) (i : Fin k) (x : α) (p : α → Bool) (h : p x = p v[i]) :
    (v.set i x).any p = v.any p := by
  rw [Bool.eq_iff_iff]
  simp only [Vector.any_eq_true, Vector.getElem_set]
  constructor
  · rintro ⟨j, hj, hx⟩
    refine ⟨j, hj, ?_⟩
    split at hx
    · next hij => subst hij; rw [← hx]; exact h.symm
    · exact hx
  · rintro ⟨j, hj, hx⟩
    refine ⟨j, hj, ?_⟩
    split
    · next hij => subst hij; rw [← hx]; exact h
    · exact hx

/-- Two roster entries that the company test cannot tell apart. -/
def companyOf (p : Option Piece) (e : Option RosterEntry) : Bool :=
  match e with
  | some x => x.isCompany p
  | none => false

theorem setPeer_company (s : State) (n : StationNo) (e : Option RosterEntry)
    (h : companyOf s.station.activePiece e = companyOf s.station.activePiece (s.peer n)) :
    (s.setPeer n e).hasCompany = s.hasCompany :=
  any_set_eq s.roster n e _ h

theorem refreshed_company (o : Options) (now : Time) (n : StationNo) (p : Option Piece) (e : Option RosterEntry) :
    companyOf p (some (refreshed o now n e)) = companyOf p e := by
  cases e with
  | none => rfl
  | some e => rfl

theorem heard_company (s : State) (u : Nat) (n : StationNo) : (s.heard u n).hasCompany = s.hasCompany :=
  setPeer_company s n _ (refreshed_company _ _ _ _ _)

theorem heard_still (s : State) (u : Nat) (n : StationNo) : (s.advance u).Still (s.heard u n) where
  company := heard_company s u n

/-- What the part takes up, its receive stage has heard. -/
theorem takesUp_hears {u : Nat} {d : Time} (h : s.takesUp u d) : s.port.hears (s.at u) d = true := by
  unfold Port.hears Port.hearsFrom Port.endedAt
  rcases h with h | h | h
  · simp [h]
  · simp [h]
  · simp [h]

theorem hears_hearsFrame {u kind : Nat} {n : StationNo} (h : s.hears u n kind) : (s.advance u).hearsFrame kind = true :=
  takesUp_hears h.2.2.2

/-- A frame of a peer acts on the part that has heard it; the rejoin reference is tested after it. -/
theorem receiveFrame_heard {n : StationNo} {u kind : Nat} (h : s.hears u n kind) (act : State → State) :
    (s.advance u).receiveFrame n kind act = (act (s.heard u n)).rejoinTest := by
  unfold State.receiveFrame
  rw [if_neg (show ¬(s.advance u).station.state = .offline from h.2.1), if_neg (by rw [hears_hearsFrame h]; decide)]
  dsimp only
  rw [if_neg (show ¬n = ((s.advance u).lineQuiet).station.own from h.2.2.1), touch_heard]

/-- A frame whose action leaves the part still, with no reference to take, answers its action with the REPORT. -/
theorem run_frame_still {n : StationNo} {u kind : Nat} (h : s.hears u n kind) (act : State → State)
    (hr : (act (s.heard u n)).referenceReady = false) (hs : (s.heard u n).Still (act (s.heard u n))) :
    run u (fun s => s.receiveFrame n kind act) s = .next (act (s.heard u n)).reportThenLeave := by
  rw [run_awake (steady_held h.1), receiveFrame_heard h, rejoinTest_of_not_ready hr]
  have hq : (s.heard u n).settled = true :=
    settled_of_still (advance_settled (steady_settled h.1) u) (heard_still s u n)
      (reportsOffered_congr (settled_parts (steady_settled h.1)).2.2.2.1 rfl rfl rfl rfl)
      (settled_parts (steady_settled h.1)).2.2.2.2
  rw [settle_of_still hq hs]

theorem heard_settled (h : s.steady = true) (u : Nat) (n : StationNo) : (s.heard u n).settled = true :=
  settled_of_still (advance_settled (steady_settled h) u) (heard_still s u n)
    (reportsOffered_congr (settled_parts (steady_settled h)).2.2.2.1 rfl rfl rfl rfl)
    (settled_parts (steady_settled h)).2.2.2.2

/-- A frame that does nothing leaves what has been heard. -/
theorem run_frame_nothing {n : StationNo} {u kind : Nat} (h : s.hears u n kind) (act : State → State)
    (ha : act (s.heard u n) = s.heard u n) : run u (fun s => s.receiveFrame n kind act) s = .next (s.heard u n) := by
  rw [run_awake (steady_held h.1), receiveFrame_heard h, ha, rejoinTest_of_not_ready (heard_reference h.1 u n),
    settle_of_settled (heard_settled h.1 u n)]

end Sys2Proof.Machine
end

