-- ==== Sys2Proof/Laws/Lists.lean ====
section
/-! SUPPORT. The timeline list and the claimant list keep their orders where an event or a claim joins or leaves (R51, R81), and the position of a running clock grows with time (R22). -/

set_option Elab.async false

namespace Sys2Proof.Machine

theorem length_insertEvent (e : TimelineEvent) (xs : List TimelineEvent) : (insertEvent e xs).length = xs.length + 1 := by
  induction xs with
  | nil => rfl
  | cons x xs ih =>
    unfold insertEvent
    split
    · rfl
    · simp only [List.length_cons, ih]

theorem mem_insertEvent {e y : TimelineEvent} {xs : List TimelineEvent} : y ∈ insertEvent e xs ↔ y = e ∨ y ∈ xs := by
  induction xs with
  | nil => simp [insertEvent]
  | cons x xs ih =>
    unfold insertEvent
    split
    · simp
    · simp only [List.mem_cons, ih]
      tauto

/-- An event that joins keeps the order of position. -/
theorem insertEvent_ordered (e : TimelineEvent) {xs : List TimelineEvent} (h : xs.Pairwise fun a b => a.pos ≤ b.pos) :
    (insertEvent e xs).Pairwise fun a b => a.pos ≤ b.pos := by
  induction xs with
  | nil => exact List.pairwise_singleton _ _
  | cons x xs ih =>
    obtain ⟨h1, h2⟩ := List.pairwise_cons.mp h
    unfold insertEvent
    split
    · next hlt =>
      refine List.pairwise_cons.mpr ⟨fun y hy => ?_, h⟩
      rcases List.mem_cons.mp hy with rfl | hy
      · exact le_of_lt hlt
      · exact le_trans (le_of_lt hlt) (h1 y hy)
    · next hle =>
      refine List.pairwise_cons.mpr ⟨fun y hy => ?_, ih h2⟩
      rcases mem_insertEvent.mp hy with rfl | hy
      · exact not_lt.mp hle
      · exact h1 y hy

/-- With room for it, an event that joins leaves the list lawful (R51). -/
theorem addEvent_timelineOrdered {s : State} (p : Pos) (k : EventKind) (h : s.timelineOrdered)
    (hr : s.reader.timeline.length < 16) : (s.addEvent p k).timelineOrdered :=
  ⟨by
    change (insertEvent _ s.reader.timeline).length ≤ 16
    rw [length_insertEvent]
    exact hr, insertEvent_ordered _ h.2⟩

/-- A list with some of its events taken keeps its order and its length. -/
theorem timelineOrdered_of_sublist {s t : State} (h : s.timelineOrdered) (hs : t.reader.timeline.Sublist s.reader.timeline) :
    t.timelineOrdered :=
  ⟨le_trans hs.length_le h.1, h.2.sublist hs⟩

theorem mem_insertClaim {a y : Claim} {xs : List Claim} : y ∈ insertClaim a xs ↔ y = a ∨ y ∈ xs := by
  induction xs with
  | nil => simp [insertClaim]
  | cons x xs ih =>
    unfold insertClaim
    split
    · simp
    · simp only [List.mem_cons, ih]
      tauto

/-- A claim of a channel that has none waiting takes its place in the order (R81). -/
theorem addClaim_claimsOrdered {s : State} (a : Claim) (h : s.claimsOrdered) (hw : s.claimWaits a.channel = false) :
    (s.addClaim a).claimsOrdered := by
  have new : ∀ x ∈ s.planner.claims, x.channel ≠ a.channel := by
    intro x hx he
    have : s.planner.claims.any (fun y => y.channel == a.channel) = true := List.any_eq_true.mpr ⟨x, hx, by simp [he]⟩
    rw [show s.planner.claims.any (fun y => y.channel == a.channel) = s.claimWaits a.channel from rfl, hw] at this
    cases this
  change (insertClaim a s.planner.claims).Pairwise _
  unfold State.claimsOrdered at h
  generalize s.planner.claims = xs at h new
  induction xs with
  | nil => exact List.pairwise_singleton _ _
  | cons x xs ih =>
    obtain ⟨h1, h2⟩ := List.pairwise_cons.mp h
    have hx := new x List.mem_cons_self
    unfold insertClaim
    split
    · next hb =>
      simp only [Claim.before, Bool.or_eq_true, decide_eq_true_eq, Bool.and_eq_true, beq_iff_eq] at hb
      refine List.pairwise_cons.mpr ⟨fun y hy => ⟨?_, fun he => new y hy he.symm⟩, h⟩
      rcases List.mem_cons.mp hy with rfl | hy
      · exact hb
      · rcases hb with hb | ⟨hb, hc⟩ <;> rcases (h1 y hy).1 with hd | ⟨hd, he⟩
        · exact Or.inl (lt_trans hb hd)
        · exact Or.inl (hd ▸ hb)
        · exact Or.inl (hb ▸ hd)
        · exact Or.inr ⟨hb.trans hd, lt_trans hc he⟩
    · next hb =>
      simp only [Claim.before, Bool.or_eq_true, decide_eq_true_eq, Bool.and_eq_true, beq_iff_eq, not_or, not_and] at hb
      refine List.pairwise_cons.mpr ⟨fun y hy => ?_, ih h2 fun y hy => new y (List.mem_cons_of_mem _ hy)⟩
      rcases mem_insertClaim.mp hy with rfl | hy
      · refine ⟨?_, hx⟩
        rcases lt_or_eq_of_le (not_lt.mp hb.1) with hd | hd
        · exact Or.inl hd
        · exact Or.inr ⟨hd, lt_of_le_of_ne (not_lt.mp (hb.2 hd.symm)) hx⟩
      · exact h1 y hy

/-- Claims that leave the list leave its order. -/
theorem claimsOrdered_of_sublist {s t : State} (h : s.claimsOrdered) (hs : t.planner.claims.Sublist s.planner.claims) :
    t.claimsOrdered := List.Pairwise.sublist hs h

/-- TRUNC of a quotient grows with its numerator. -/
theorem trunc_mono {a b d : Int} (hd : 0 < d) (h : a ≤ b) : trunc a d ≤ trunc b d := by
  unfold trunc
  exact Int.tdiv_le_tdiv hd h

/-- The position of a running clock never decreases as time goes on (R22). -/
theorem Clock.positionAt_mono {c : Clock} {t u : Time} (hl : 0 < c.l) (h : t ≤ u) : c.positionAt t ≤ c.positionAt u := by
  have step : trunc ((t - c.b) * Config.beat) c.l ≤ trunc ((u - c.b) * Config.beat) c.l := by
    refine trunc_mono hl (Int.mul_le_mul_of_nonneg_right (Int.sub_le_sub_right h _) ?_)
    decide
  unfold Clock.positionAt
  exact max_le_max (le_refl _) (min_le_min (le_refl _) (Int.add_le_add_left step _))

end Sys2Proof.Machine
end

