-- ==== Sys2Proof/Laws/PerInstr.lean ====
section
/-! SUPPORT. The moment of a command, per constructor: the three rows without a moment are the ends of reset and the loss of the retained record, and the moment of every other well-formed command fits the 48 bits of local time (00, Local time). -/

set_option Elab.async false

namespace Sys2Proof.Laws.CommandTime

/-- A well-formed command's moment fits 48 bits; a command without a moment ends a reset condition or loses the record of power. -/
def Statement (i : Instr) : Prop :=
  (i.wellFormed = true → ∀ t, i.moment = some t → t < 2 ^ 48)
    ∧ (i.moment = none → (∃ k, i = .resetNRelease k) ∨ (∃ k, i = .supplyRise k) ∨ i = .retentionLoss)

theorem statement_of_moment {i : Instr} {t : Nat} (h : i.moment = some t) : Statement i := by
  refine ⟨fun hw k hk => ?_, fun hn => by rw [h] at hn; cases hn⟩
  have hf : i.momentFits = true := (Bool.and_eq_true _ _ ▸ hw).1
  unfold Instr.momentFits at hf
  rw [hk] at hf
  exact of_decide_eq_true hf

theorem statement_of_none {i : Instr} (h : i.moment = none)
    (hi : (∃ k, i = .resetNRelease k) ∨ (∃ k, i = .supplyRise k) ∨ i = .retentionLoss) : Statement i :=
  ⟨fun _ t ht => (by rw [h] at ht; cases ht), fun _ => hi⟩

theorem resetNAssert (t : Nat) : Statement (.resetNAssert t) := statement_of_moment rfl
theorem resetNRelease (straps : StationNo) : Statement (.resetNRelease straps) := statement_of_none rfl (.inl ⟨_, rfl⟩)
theorem supplyFall (t : Nat) : Statement (.supplyFall t) := statement_of_moment rfl
theorem supplyRise (straps : StationNo) : Statement (.supplyRise straps) := statement_of_none rfl (.inr (.inl ⟨_, rfl⟩))
theorem retentionLoss : Statement .retentionLoss := statement_of_none rfl (.inr (.inr rfl))
theorem validationComplete (t : Nat) : Statement (.validationComplete t) := statement_of_moment rfl
theorem joinDeadline (t : Nat) : Statement (.joinDeadline t) := statement_of_moment rfl
theorem keepaliveDeadline (t : Nat) : Statement (.keepaliveDeadline t) := statement_of_moment rfl
theorem companyDeadline (t : Nat) : Statement (.companyDeadline t) := statement_of_moment rfl
theorem presenceDeadline (t : Nat) (peer : StationNo) : Statement (.presenceDeadline t peer) := statement_of_moment rfl
theorem buttonInputEdge (t : Nat) (button : Button) (asserted : Bool) : Statement (.buttonInputEdge t button asserted) := statement_of_moment rfl
theorem startInPress (t : Nat) : Statement (.startInPress t) := statement_of_moment rfl
theorem stopInPress (t : Nat) : Statement (.stopInPress t) := statement_of_moment rfl
theorem buttonReleaseQualified (t : Nat) (button : Button) : Statement (.buttonReleaseQualified t button) := statement_of_moment rfl
theorem startFrame (t : Nat) (sender : StationNo) (piece : Byte) (startBar : BitVec 16) (lead : Byte) (period : BitVec 24) : Statement (.startFrame t sender piece startBar lead period) := statement_of_moment rfl
theorem stopFrame (t : Nat) (sender : StationNo) (reason : Byte) : Statement (.stopFrame t sender reason) := statement_of_moment rfl
theorem releaseFrame (t : Nat) (sender : StationNo) (piece hold : Byte) : Statement (.releaseFrame t sender piece hold) := statement_of_moment rfl
theorem markFrame (t : Nat) (sender : StationNo) (pos : BitVec 32) (len : BitVec 24) (bar : BitVec 16) (state piece hold : Byte) : Statement (.markFrame t sender pos len bar state piece hold) := statement_of_moment rfl
theorem announceFrame (t : Nat) (sender : StationNo) (cls state piece cause : Byte) : Statement (.announceFrame t sender cls state piece cause) := statement_of_moment rfl
theorem muteFrame (t : Nat) (sender : StationNo) (mask : BitVec 32) (piece : Byte) (startBar stopBar : BitVec 16) (onOff : Byte) : Statement (.muteFrame t sender mask piece startBar stopBar onOff) := statement_of_moment rfl
theorem queryFrame (t : Nat) (sender : StationNo) (target : Byte) : Statement (.queryFrame t sender target) := statement_of_moment rfl
theorem reportFrame (t : Nat) (sender : StationNo) (source level count : Byte) (detail : BitVec 16) (queried : Byte) : Statement (.reportFrame t sender source level count detail queried) := statement_of_moment rfl
theorem svcReplyFrame (t : Nat) (sender : StationNo) (requester status : Byte) (addr : BitVec 16) (data : BitVec 64) : Statement (.svcReplyFrame t sender requester status addr data) := statement_of_moment rfl
theorem readStore (t : Nat) (sender : StationNo) (target : Byte) (addr : BitVec 16) : Statement (.readStore t sender target addr) := statement_of_moment rfl
theorem programStore (t : Nat) (sender : StationNo) (target : Byte) (addr : BitVec 16) (data : BitVec 64) : Statement (.programStore t sender target addr data) := statement_of_moment rfl
theorem programComplete (t : Nat) : Statement (.programComplete t) := statement_of_moment rfl
theorem eraseSector (t : Nat) (sender : StationNo) (target : Byte) (addr : BitVec 16) : Statement (.eraseSector t sender target addr) := statement_of_moment rfl
theorem eraseComplete (t : Nat) : Statement (.eraseComplete t) := statement_of_moment rfl
theorem enterService (t : Nat) (sender : StationNo) (target : Byte) (addr : BitVec 16) : Statement (.enterService t sender target addr) := statement_of_moment rfl
theorem leaveService (t : Nat) (sender : StationNo) (target : Byte) (addr : BitVec 16) : Statement (.leaveService t sender target addr) := statement_of_moment rfl
theorem partReset (t : Nat) (sender : StationNo) (target : Byte) (addr : BitVec 16) : Statement (.partReset t sender target addr) := statement_of_moment rfl
theorem clearHalt (t : Nat) (sender : StationNo) (target : Byte) (addr : BitVec 16) : Statement (.clearHalt t sender target addr) := statement_of_moment rfl
theorem enableChannel (t : Nat) (sender : StationNo) (target : Byte) (addr : BitVec 16) : Statement (.enableChannel t sender target addr) := statement_of_moment rfl
theorem check (t : Nat) (sender : StationNo) (target : Byte) (addr : BitVec 16) (n : Byte) : Statement (.check t sender target addr n) := statement_of_moment rfl
theorem readRoster (t : Nat) (sender : StationNo) (target : Byte) (addr : BitVec 16) : Statement (.readRoster t sender target addr) := statement_of_moment rfl
theorem readCounters (t : Nat) (sender : StationNo) (target : Byte) (addr : BitVec 16) : Statement (.readCounters t sender target addr) := statement_of_moment rfl
theorem readChannel (t : Nat) (sender : StationNo) (target : Byte) (addr : BitVec 16) : Statement (.readChannel t sender target addr) := statement_of_moment rfl
theorem unknownSvcOperation (t : Nat) (sender : StationNo) (target op : Byte) (addr : BitVec 16) : Statement (.unknownSvcOperation t sender target op addr) := statement_of_moment rfl
theorem frameCrcError (m : FaultMoment) : Statement (.frameCrcError m) := statement_of_moment rfl
theorem frameFramingError (m : FaultMoment) : Statement (.frameFramingError m) := statement_of_moment rfl
theorem frameUnknownKind (m : LineMoment) : Statement (.frameUnknownKind m) := statement_of_moment rfl
theorem txAttemptStart (t : Nat) (recessiveSince : Nat) : Statement (.txAttemptStart t recessiveSince) := statement_of_moment rfl
theorem arbitrationLoss (t : Nat) : Statement (.arbitrationLoss t) := statement_of_moment rfl
theorem txError (t : Nat) : Statement (.txError t) := statement_of_moment rfl
theorem muteEnd (t : Nat) : Statement (.muteEnd t) := statement_of_moment rfl
theorem frameSent (t : Nat) : Statement (.frameSent t) := statement_of_moment rfl
theorem beatBoundary (t : Nat) : Statement (.beatBoundary t) := statement_of_moment rfl
theorem holdReached (t : Nat) : Statement (.holdReached t) := statement_of_moment rfl
theorem ownerDeadline (t : Nat) : Statement (.ownerDeadline t) := statement_of_moment rfl
theorem holdLimit (t : Nat) : Statement (.holdLimit t) := statement_of_moment rfl
theorem holdMarkDeadline (t : Nat) : Statement (.holdMarkDeadline t) := statement_of_moment rfl
theorem endReached (t : Nat) : Statement (.endReached t) := statement_of_moment rfl
theorem readerTakeItem (t : Nat) : Statement (.readerTakeItem t) := statement_of_moment rfl
theorem scanRecord (t : Nat) : Statement (.scanRecord t) := statement_of_moment rfl
theorem armMoment (t : Nat) : Statement (.armMoment t) := statement_of_moment rfl
theorem fireTimeReached (t : Nat) (channel : Chan) : Statement (.fireTimeReached t channel) := statement_of_moment rfl
theorem claimLateDrop (t : Nat) : Statement (.claimLateDrop t) := statement_of_moment rfl
theorem pulseEnd (t : Nat) (channel : Chan) : Statement (.pulseEnd t channel) := statement_of_moment rfl
theorem recoveryEnd (t : Nat) (channel : Chan) : Statement (.recoveryEnd t channel) := statement_of_moment rfl
theorem sensorAssertion (t : Nat) (input : Chan) : Statement (.sensorAssertion t input) := statement_of_moment rfl
theorem sensorRelease (t : Nat) (input : Chan) : Statement (.sensorRelease t input) := statement_of_moment rfl
theorem windowOpen (t : Nat) : Statement (.windowOpen t) := statement_of_moment rfl
theorem windowClose (t : Nat) : Statement (.windowClose t) := statement_of_moment rfl
theorem stuckDeadline (t : Nat) (input : Chan) : Statement (.stuckDeadline t input) := statement_of_moment rfl
theorem dampApply (t : Nat) (channel : Chan) : Statement (.dampApply t channel) := statement_of_moment rfl
theorem pullInEnd (t : Nat) (channel : Chan) : Statement (.pullInEnd t channel) := statement_of_moment rfl
theorem damperCheckDeadline (t : Nat) (channel : Chan) : Statement (.damperCheckDeadline t channel) := statement_of_moment rfl
theorem tachEdge (t : Nat) : Statement (.tachEdge t) := statement_of_moment rfl
theorem railSample (t : Nat) (millivolts : Int) : Statement (.railSample t millivolts) := statement_of_moment rfl
theorem frameLeadingEdge (m : LineMoment) : Statement (.frameLeadingEdge m) := statement_of_moment rfl

end Sys2Proof.Laws.CommandTime
end

