-- ==== Sys2Proof/Laws/Records.lean ====
section
/-! SUPPORT. Confirm records: the operations of the hit monitor are the resolutions and the placing that Safety.lean writes out from the rules. -/

set_option Elab.async false

namespace Sys2Proof.Machine

/-- A miss is what R112 says. -/
theorem missed_eq_recordMissed (s : State) (r : ConfirmRecord) : s.missed r = s.recordMissed r := by
  simp [State.missed, State.recordMissed, Channel.miss, stepTo]

/-- A confirmation is what R109, R111 and R116 say, of a record that an edge with this impact confirms or a level. -/
theorem confirmed_eq_recordConfirmed (s : State) (r : ConfirmRecord) (m : Option Time) :
    s.confirmed r (m.map fun x => x - r.expected) = s.recordConfirmed r m := by
  cases m <;> simp [State.confirmed, State.recordConfirmed, Channel.confirm, ConfirmRecord.teaches, learnedTrim, SensorInput.quiet,
    Config.bounceGuard, and_assoc]

/-- An edge match uses the edge up and confirms (R104, R107). -/
theorem edgeMatch_eq (s : State) (r : ConfirmRecord) (l : Latch) (h : (s.input r.input).latch = some l) :
    s.edgeMatch r l = (s.setInput r.input { s.input r.input with
      latch := if s.inputMode r.input = .edge then none else some { l with edgeUsed := true } }).recordConfirmed r (some l.impact) := by
  rw [← confirmed_eq_recordConfirmed]
  unfold State.edgeMatch SensorInput.useEdge
  cases s.inputMode r.input <;> simp [h]

/-- A record placed with its open time come opens, takes the latch or is missed (R107). -/
theorem placeOpen_eq_recordOpened (s : State) (r : ConfirmRecord) : s.placeOpen r = s.recordOpened r := by
  unfold State.placeOpen State.windowMatch State.recordOpened
  cases h : (s.input r.input).latch with
  | none => simp [h, missed_eq_recordMissed]
  | some l =>
    cases hu : l.edgeUsed with
    | false => simp [h, hu, edgeMatch_eq s r l h]
    | true =>
      by_cases hm : s.inputMode r.input = .edgeLevel ∧ (s.input r.input).stuck = false
      · simpa [h, hu, hm] using confirmed_eq_recordConfirmed s r none
      · simp [h, hu, hm, missed_eq_recordMissed]

/-- A record is placed as R107 and R113 say. -/
theorem placeRecord_eq_recordPlaced (s : State) (r : ConfirmRecord) : s.placeRecord r = s.recordPlaced r := by
  unfold State.placeRecord State.recordPlaced
  cases h : s.confirm with
  | nil => simp [h, Config.confirmDepth, placeOpen_eq_recordOpened]
  | cons x xs =>
    by_cases hl : xs.length < 31
    · have : xs.length + 1 < Config.confirmDepth := by unfold Config.confirmDepth; omega
      simp [hl, this, placeOpen_eq_recordOpened, h]
    · have : ¬ xs.length + 1 < Config.confirmDepth := by unfold Config.confirmDepth; omega
      simp [hl, this, placeOpen_eq_recordOpened, missed_eq_recordMissed]

/-- A pulse that ends leaves its recovery and hands its record over (R90 to R92, R107). -/
theorem finishPulse_eq_recordPlaced (s : State) (c : Chan) (p : Pulse) (cut : Bool) (h : (s.channel c).pulse = some p) :
    s.finishPulse c cut
      = (s.setChannel c ((s.channel c).endPulse (s.settings c) p s.now cut)).recordPlaced (s.recordAt c p cut) := by
  unfold State.finishPulse
  rw [h, ← placeRecord_eq_recordPlaced]
  rfl

end Sys2Proof.Machine
end

