-- ==== Sys2Proof/Laws/Scan.lean ====
section
/-! SUPPORT. What the scan's test of its lines does: one line or held record after another until nothing is left to do (R59), whatever number of rounds it is given beyond those it needs. -/

set_option Elab.async false

namespace Sys2Proof.Machine

/-- The rounds a scan can still need: one to test its line, two for each line up to the next record, one for each held record. -/
def Scan.need (sc : Scan) : Nat :=
  (if sc.lineUntested then 1 else 0) + 2 * ((sc.cursor.position - sc.meter.barStart) / 7680).toNat + sc.held.length

/-- An ordinary line stands on a beat start, a beat or more on. -/
theorem ordinaryLine_beats (m : Meter) (h1 : m.barStart % 7680 = 0) (h2 : 1 ≤ m.bpb) :
    m.ordinaryLine % 7680 = 0 ∧ m.barStart + 7680 ≤ m.ordinaryLine := by
  unfold Meter.ordinaryLine Config.beat
  exact beats_on _ _ h1 h2
where
  beats_on (b : Int) (n : Nat) (h1 : b % 7680 = 0) (h2 : 1 ≤ n) :
      (b + (n : Int) * 7680) % 7680 = 0 ∧ b + 7680 ≤ b + (n : Int) * 7680 := by omega

/-- Beat starts lie a beat or more apart. -/
theorem beats_apart (a b : Int) (h1 : a % 7680 = 0) (h2 : b % 7680 = 0) (h : a < b) : a + 7680 ≤ b := by omega

/-- A lawful meter steps on by a beat or more, to a line at or below the position asked for. -/
theorem Scan.step_lawful {sc : Scan} {m : Meter} (h : sc.lawful) (hs : sc.meter.step sc.cursor.position = some m) :
    ({ sc with meter := m, lineUntested := true } : Scan).lawful ∧ sc.meter.barStart + 7680 ≤ m.barStart := by
  obtain ⟨h1, h2, h3, h4, h5⟩ := h
  have ordinary : sc.meter.ordinaryLine ≤ sc.cursor.position → (∀ ch, sc.meter.change = some ch → sc.meter.ordinaryLine < ch.pos) →
      m = sc.meter.ordinaryStep → ({ sc with meter := m, lineUntested := true } : Scan).lawful
        ∧ sc.meter.barStart + 7680 ≤ m.barStart := by
    rintro ho hc rfl
    obtain ⟨b1, b2⟩ := ordinaryLine_beats sc.meter h1 h3
    exact ⟨⟨b1, ho, h3, fun ch hch => ⟨(h4 ch hch).1, hc ch hch, (h4 ch hch).2.2⟩, h5⟩, b2⟩
  unfold Meter.step at hs
  dsimp only at hs
  split at hs
  · next ch hch =>
    obtain ⟨c1, c2, c3⟩ := h4 ch hch
    split at hs
    · split at hs
      · next hp =>
        cases hs
        exact ⟨⟨c1, hp, c3, fun _ hx => (by cases hx), h5⟩, beats_apart _ _ h1 c1 c2⟩
      · cases hs
    · next hlt =>
      split at hs
      · next ho =>
        cases hs
        refine ordinary ho (fun x hx => ?_) rfl
        rw [hch] at hx
        cases hx
        exact Int.not_le.mp hlt
      · cases hs
  · next hn =>
    split at hs
    · next ho =>
      cases hs
      refine ordinary ho (fun x hx => ?_) rfl
      rw [hn] at hx
      cases hx
    · cases hs

/-- A held record that is noted leaves a scan of the same place, meter and line test, with the other held records. -/
theorem scanNote_keeps {s : State} {sc : Scan} {p : Pos} {k : EventKind} {x : State × Scan} (hk : k.ofMeter = false)
    (h : s.scanNote sc p k = some x) :
    x.2.meter = sc.meter ∧ x.2.cursor = sc.cursor ∧ x.2.lineUntested = sc.lineUntested ∧ x.2.held = sc.held := by
  unfold State.scanNote at h
  split at h
  · cases hk
  · cases hk
  · split at h
    · cases h
      exact ⟨rfl, rfl, rfl, rfl⟩
    · obtain ⟨t, _, rfl⟩ := Option.map_eq_some_iff.mp h
      exact ⟨rfl, rfl, rfl, rfl⟩
  all_goals
    cases h
    exact ⟨rfl, rfl, rfl, rfl⟩

/-- A round of the line test is one of those needed: it ends the scan, or leaves a lawful one that needs fewer rounds. -/
theorem scanLine_needs_less {s t : State} {sc : Scan} (hl : sc.lawful) (h : s.scanLine sc = some t) :
    1 ≤ sc.need ∧ (t.reader.scan = none ∨ ∃ sc', t.reader.scan = some sc' ∧ sc'.lawful ∧ sc'.need < sc.need) := by
  have tested : sc.lineUntested = true → ∀ target, ({ sc with lineUntested := false, target := target } : Scan).lawful
      ∧ ({ sc with lineUntested := false, target := target } : Scan).need < sc.need := by
    intro hu target
    refine ⟨hl, ?_⟩
    simp [Scan.need, hu]
  have some' : sc.lineUntested = true → 1 ≤ sc.need := by
    intro hu
    simp only [Scan.need, hu, if_true]
    omega
  unfold State.scanLine at h
  split at h
  · next hu =>
    refine ⟨some' hu, ?_⟩
    split at h
    · cases h
    · split at h
      · split at h
        · cases h
          unfold State.handOverStart
          dsimp only
          split
          · exact Or.inl rfl
          · exact Or.inr ⟨_, rfl, tested hu .entry⟩
        · cases h
          exact Or.inl rfl
      · cases h
        exact Or.inr ⟨_, rfl, tested hu sc.target⟩
  · next hu =>
    split at h
    · unfold State.noteHeld at h
      split at h
      · cases h
      · next k rest hh =>
        obtain ⟨x, hx, rfl⟩ := Option.map_eq_some_iff.mp h
        obtain ⟨l1, l2, l3, l4, l5⟩ := hl
        obtain ⟨k1, k2, k3, k4⟩ := scanNote_keeps (l5 k (by rw [hh]; exact List.mem_cons_self)) hx
        refine ⟨by simp only [Scan.need, hh, List.length_cons]; omega, Or.inr ⟨x.2, rfl, ⟨?_, ?_, ?_, ?_, ?_⟩, ?_⟩⟩
        · rw [k1]; exact l1
        · rw [k1, k2]; exact l2
        · rw [k1]; exact l3
        · rw [k1]; exact l4
        · rw [k4]
          exact fun y hy => l5 y (by rw [hh]; exact List.mem_cons_of_mem _ hy)
        · simp only [Scan.need, k1, k2, k3, k4, hh, List.length_cons]
          omega
    · obtain ⟨m, hm, rfl⟩ := Option.map_eq_some_iff.mp h
      obtain ⟨g1, g2⟩ := Scan.step_lawful hl hm
      have fewer := lines_fewer _ _ _ (show m.barStart ≤ sc.cursor.position from g1.2.1) g2
      have hf : sc.lineUntested = false := by simpa using hu
      refine ⟨?_, Or.inr ⟨_, rfl, g1, ?_⟩⟩ <;>
        simp only [Scan.need, hf, if_true, Bool.false_eq_true, if_false] <;> omega
where
  lines_fewer (p b c : Int) (h1 : c ≤ p) (h2 : b + 7680 ≤ c) : ((p - c) / 7680).toNat + 1 ≤ ((p - b) / 7680).toNat := by
    omega

theorem scanLines_zero (s : State) : s.scanLines 0 = s := rfl

theorem scanLines_of_none {s : State} (h : s.reader.scan = none) (n : Nat) : s.scanLines n = s := by
  cases n with
  | zero => rfl
  | succ n =>
    unfold State.scanLines
    rw [h]

theorem scanLines_of_done {s : State} {sc : Scan} (h : s.reader.scan = some sc) (hd : s.scanLine sc = none) (n : Nat) :
    s.scanLines n = s := by
  cases n with
  | zero => rfl
  | succ n =>
    unfold State.scanLines
    rw [h]
    dsimp only
    rw [hd]

theorem scanLines_succ {s t : State} {sc : Scan} (h : s.reader.scan = some sc) (ht : s.scanLine sc = some t) (n : Nat) :
    s.scanLines (n + 1) = t.scanLines n := by
  conv => lhs; unfold State.scanLines
  rw [h]
  dsimp only
  rw [ht]

/-- Rounds beyond those needed change nothing. -/
theorem scanLines_enough (k : Nat) : ∀ (s : State) (sc : Scan) (n m : Nat), s.reader.scan = some sc → sc.lawful → sc.need ≤ k →
    sc.need ≤ n → sc.need ≤ m → s.scanLines n = s.scanLines m := by
  induction k with
  | zero =>
    intro s sc n m h hl hk _ _
    cases hd : s.scanLine sc with
    | none => rw [scanLines_of_done h hd, scanLines_of_done h hd]
    | some t => exact absurd (scanLine_needs_less hl hd).1 (by omega)
  | succ k ih =>
    intro s sc n m h hl hk hn hm
    cases hd : s.scanLine sc with
    | none => rw [scanLines_of_done h hd, scanLines_of_done h hd]
    | some t =>
      obtain ⟨h1, h2⟩ := scanLine_needs_less hl hd
      obtain ⟨n, rfl⟩ : ∃ x, n = x + 1 := ⟨n - 1, by omega⟩
      obtain ⟨m, rfl⟩ : ∃ x, m = x + 1 := ⟨m - 1, by omega⟩
      rw [scanLines_succ h hd, scanLines_succ h hd]
      rcases h2 with h' | ⟨sc', h', hl', hlt⟩
      · rw [scanLines_of_none h', scanLines_of_none h']
      · exact ih t sc' n m h' hl' (by omega) (by omega) (by omega)

theorem Scan.need_le_rounds (sc : Scan) : sc.need ≤ sc.rounds := by
  have : sc.meter.rounds sc.cursor.position = ((sc.cursor.position - sc.meter.barStart) / 7680).toNat + 2 := rfl
  unfold Scan.need Scan.rounds
  rw [this]
  split <;> omega

theorem testLines_of_none {s : State} (h : s.reader.scan = none) : s.testLines = s := by
  unfold State.testLines
  rw [h]

/-- With nothing left to do the line test changes nothing. -/
theorem testLines_of_done {s : State} {sc : Scan} (h : s.reader.scan = some sc) (hd : s.scanLine sc = none) : s.testLines = s := by
  unfold State.testLines
  rw [h]
  exact scanLines_of_done h hd _

/-- The line test goes on after each line tested, crossed or record noted, until nothing is left to do. -/
theorem testLines_of_line {s t : State} {sc : Scan} (h : s.reader.scan = some sc) (hl : sc.lawful) (ht : s.scanLine sc = some t) :
    s.testLines = t.testLines := by
  obtain ⟨h1, h2⟩ := scanLine_needs_less hl ht
  have start : s.testLines = s.scanLines sc.rounds := by
    unfold State.testLines
    rw [h]
  obtain ⟨n, hn⟩ : ∃ x, sc.rounds = x + 1 := ⟨sc.rounds - 1, by have := sc.need_le_rounds; omega⟩
  rw [start, hn, scanLines_succ h ht]
  rcases h2 with h' | ⟨sc', h', hl', hlt⟩
  · rw [scanLines_of_none h', testLines_of_none h']
  · have : t.testLines = t.scanLines sc'.rounds := by
      unfold State.testLines
      rw [h']
    rw [this]
    have := sc.need_le_rounds
    exact scanLines_enough _ t sc' _ _ h' hl' (le_refl _) (by omega) sc'.need_le_rounds

end Sys2Proof.Machine
end

