-- ==== Sys2Proof/Laws/Store.lean ====
section
/-! SUPPORT. What the operations of the score store do: each keeps the canonical form, and each is read back byte by byte. -/

set_option Elab.async false

namespace Sys2Proof.Machine

theorem Memory.wfFrom_cons {lo k : Nat} {v : Byte} {m : Memory} :
    Memory.wfFrom lo ((k, v) :: m) = true ↔ lo ≤ k ∧ k < Memory.size ∧ v ≠ Memory.unlisted ∧ Memory.wfFrom (k + 1) m = true := by
  simp only [Memory.wfFrom, Bool.and_eq_true, decide_eq_true_eq, bne_iff_ne, and_assoc]

theorem Memory.read_cons (k a : Nat) (v : Byte) (m : Memory) :
    Memory.read ((k, v) :: m) a = if k = a then v else Memory.read m a := rfl

theorem Memory.read_nil (a : Nat) : Memory.read [] a = Memory.unlisted := rfl

theorem Memory.wfFrom_mono {lo lo' : Nat} (h : lo' ≤ lo) : ∀ {m : Memory}, Memory.wfFrom lo m = true → Memory.wfFrom lo' m = true
  | [], _ => rfl
  | (_, _) :: _, hm => by
    rw [Memory.wfFrom_cons] at hm ⊢
    exact ⟨Nat.le_trans h hm.1, hm.2⟩

/-- An address below every listed one reads as unlisted. -/
theorem Memory.read_below {lo a : Nat} (h : a < lo) : ∀ {m : Memory}, Memory.wfFrom lo m = true → Memory.read m a = Memory.unlisted
  | [], _ => rfl
  | (k, v) :: rest, hm => by
    rw [Memory.wfFrom_cons] at hm
    rw [Memory.read_cons, if_neg (by omega)]
    exact Memory.read_below (by omega) hm.2.2.2

/-- A byte that is not listed as itself reads as unlisted outside the store. -/
theorem Memory.read_outside {a : Nat} (h : Memory.size ≤ a) : ∀ {lo : Nat} {m : Memory}, Memory.wfFrom lo m = true →
    Memory.read m a = Memory.unlisted
  | _, [], _ => rfl
  | _, (k, v) :: rest, hm => by
    rw [Memory.wfFrom_cons] at hm
    rw [Memory.read_cons, if_neg (by omega)]
    exact Memory.read_outside h hm.2.2.2

/-! ### One byte -/

theorem Memory.write_wfFrom {a : Nat} (ha : a < Memory.size) (v : Byte) : ∀ {lo : Nat} {m : Memory}, lo ≤ a →
    Memory.wfFrom lo m = true → Memory.wfFrom lo (Memory.write m a v) = true
  | lo, [], hl, _ => by
    unfold Memory.write
    split
    · rfl
    · next hv => rw [Memory.wfFrom_cons]; exact ⟨hl, ha, hv, rfl⟩
  | lo, (k, w) :: rest, hl, hm => by
    have hc := Memory.wfFrom_cons.mp hm
    unfold Memory.write
    split
    · next hk =>
      split
      · exact hm
      · next hv =>
        rw [Memory.wfFrom_cons]
        exact ⟨hl, ha, hv, Memory.wfFrom_cons.mpr ⟨hk, hc.2⟩⟩
    · split
      · next hk =>
        split
        · exact Memory.wfFrom_mono (by omega) hc.2.2.2
        · next hv =>
          rw [Memory.wfFrom_cons]
          exact ⟨hl, ha, hv, by rw [hk]; exact hc.2.2.2⟩
      · rw [Memory.wfFrom_cons]
        exact ⟨hc.1, hc.2.1, hc.2.2.1, Memory.write_wfFrom ha v (by omega) hc.2.2.2⟩

/-- A byte written reads back, and no other byte changes. -/
theorem Memory.read_write (a b : Nat) (v : Byte) : ∀ {lo : Nat} {m : Memory}, Memory.wfFrom lo m = true →
    Memory.read (Memory.write m a v) b = if b = a then v else Memory.read m b
  | _, [], _ => by
    unfold Memory.write
    by_cases hv : v = Memory.unlisted <;> by_cases h : b = a
    · rw [if_pos hv, if_pos h, hv]; rfl
    · rw [if_pos hv, if_neg h]
    · rw [if_neg hv, if_pos h, Memory.read_cons, if_pos h.symm]
    · rw [if_neg hv, if_neg h, Memory.read_cons, if_neg (Ne.symm h)]
  | _, (k, w) :: rest, hm => by
    have hc := Memory.wfFrom_cons.mp hm
    unfold Memory.write
    by_cases hk : a < k
    · rw [if_pos hk]
      by_cases hv : v = Memory.unlisted <;> by_cases h : b = a
      · rw [if_pos hv, if_pos h, h, hv, Memory.read_cons, if_neg (by omega)]
        exact Memory.read_below (by omega) hc.2.2.2
      · rw [if_pos hv, if_neg h]
      · rw [if_neg hv, if_pos h, Memory.read_cons, if_pos h.symm]
      · rw [if_neg hv, if_neg h, Memory.read_cons, if_neg (Ne.symm h)]
    · rw [if_neg hk]
      by_cases he : a = k
      · rw [if_pos he]
        by_cases hv : v = Memory.unlisted <;> by_cases h : b = a
        · rw [if_pos hv, if_pos h, h, hv]
          exact Memory.read_below (by omega) hc.2.2.2
        · rw [if_pos hv, if_neg h, Memory.read_cons, if_neg (by omega)]
        · rw [if_neg hv, if_pos h, Memory.read_cons, if_pos h.symm]
        · rw [if_neg hv, if_neg h, Memory.read_cons, Memory.read_cons, if_neg (Ne.symm h), if_neg (by omega)]
      · rw [if_neg he, Memory.read_cons, Memory.read_cons, Memory.read_write a b v hc.2.2.2]
        by_cases h : k = b
        · rw [if_pos h, if_pos h, if_neg (by omega)]
        · rw [if_neg h, if_neg h]

/-! ### A run of bytes -/

theorem Memory.update_wf (f : Nat → Byte → Byte) : ∀ (n : Nat) {m : Memory} {a : Nat}, m.wf = true → a + n ≤ Memory.size →
    (m.update a f n).wf = true
  | 0, _, _, hm, _ => hm
  | n + 1, m, a, hm, h => by
    unfold Memory.update
    exact Memory.update_wf f n (Memory.write_wfFrom (by omega) _ (Nat.zero_le _) hm) (by omega)

/-- Each byte of the run is given by `f`, and no other byte changes. -/
theorem Memory.read_update (f : Nat → Byte → Byte) (b : Nat) : ∀ (n : Nat) {m : Memory} {a : Nat}, m.wf = true →
    a + n ≤ Memory.size → (m.update a f n).read b = if a ≤ b ∧ b < a + n then f b (m.read b) else m.read b
  | 0, _, _, _, _ => by rw [if_neg (by omega)]; rfl
  | n + 1, m, a, hm, h => by
    unfold Memory.update
    rw [Memory.read_update f b n (Memory.write_wfFrom (by omega) _ (Nat.zero_le _) hm) (by omega), Memory.read_write _ _ _ hm]
    by_cases hb : b = a
    · subst hb
      rw [if_neg (by omega), if_pos rfl, if_pos (by omega)]
    · rw [if_neg hb]
      by_cases hr : a ≤ b ∧ b < a + (n + 1)
      · rw [if_pos hr, if_pos (by omega)]
      · rw [if_neg hr, if_neg (by omega)]

theorem Memory.program_wf {m : Memory} {a : Nat} (d : BitVec 64) (hm : m.wf = true) (h : a + 8 ≤ Memory.size) :
    (m.program a d).wf = true := Memory.update_wf _ 8 hm h

theorem Memory.programCut_wf {m : Memory} {a : Nat} (d : BitVec 64) (k : Nat) (hm : m.wf = true) (h : a + 8 ≤ Memory.size) :
    (m.programCut a d k).wf = true := Memory.update_wf _ 8 hm h

theorem Memory.eraseCut_wf {m : Memory} {sector : Nat} (k : Nat) (hm : m.wf = true) (h : sector < 64) :
    (m.eraseCut sector k).wf = true := Memory.update_wf _ 1024 hm (by unfold Memory.size; omega)

/-- Programming clears bits, in its eight bytes alone (R167). -/
theorem Memory.read_program {m : Memory} {a : Nat} (d : BitVec 64) (b : Nat) (hm : m.wf = true) (h : a + 8 ≤ Memory.size) :
    (m.program a d).read b = if a ≤ b ∧ b < a + 8 then m.read b &&& dataByte d (b - a) else m.read b :=
  Memory.read_update _ b 8 hm h

/-! ### Erasing -/

theorem Memory.filter_wfFrom (p : Host.Cell → Bool) : ∀ {lo : Nat} {m : Memory}, Memory.wfFrom lo m = true →
    Memory.wfFrom lo (m.filter p) = true
  | _, [], _ => rfl
  | _, c :: rest, hm => by
    obtain ⟨k, v⟩ := c
    have hc := Memory.wfFrom_cons.mp hm
    have ih := Memory.filter_wfFrom p hc.2.2.2
    rw [List.filter_cons]
    split
    · exact Memory.wfFrom_cons.mpr ⟨hc.1, hc.2.1, hc.2.2.1, ih⟩
    · exact Memory.wfFrom_mono (by omega) ih

theorem Memory.erase_wf {m : Memory} (sector : Nat) (hm : m.wf = true) : (m.erase sector).wf = true :=
  Memory.filter_wfFrom _ hm

/-- Erasing sets every byte of the sector, and no other byte changes (R167). -/
theorem Memory.read_erase (sector b : Nat) : ∀ (m : Memory),
    (m.erase sector).read b = if sectorOf b = sector then Memory.unlisted else m.read b
  | [] => by unfold Memory.erase; rw [List.filter_nil, Memory.read_nil]; split <;> rfl
  | (k, v) :: rest => by
    have ih := Memory.read_erase sector b rest
    unfold Memory.erase at ih ⊢
    rw [List.filter_cons, Memory.read_cons]
    by_cases hk : sectorOf k = sector
    · rw [if_neg (by simp [hk]), ih]
      by_cases hb : sectorOf b = sector
      · rw [if_pos hb, if_pos hb]
      · rw [if_neg hb, if_neg hb, if_neg fun h => hb (by rw [← h, hk])]
    · rw [if_pos (by simpa using hk), Memory.read_cons, ih]
      by_cases h : k = b
      · rw [if_pos h, if_pos h, if_neg (by rw [← h]; exact hk)]
      · rw [if_neg h, if_neg h]

/-- A sector just erased reads erased (R173). -/
theorem Memory.erased_erase (m : Memory) (sector : Nat) : (m.erase sector).erased sector = true := by
  unfold Memory.erased Memory.erase
  rw [List.all_eq_true]
  intro c hc
  rw [(List.mem_filter.mp hc).2]
  rfl

end Sys2Proof.Machine
end

