-- ==== Sys2Proof/Tests/Slice0.lean ====
section
/-! SUPPORT. Tests of this model: ill-formed commands, the worked cases of the spec, and for every statement a state and operands that meet its hypotheses, with the result there. -/

set_option Elab.async false

namespace Sys2Proof.Tests

open Sys2Proof Sys2Proof.Machine

/-! ## A small station -/

/-- A striker on output `k` with sensor input `i`, with the figures of the worked case of 4.4. -/
def striker (k i : Chan) (mode : SensorMode) : ChannelSettings :=
  { kind := .striker, mode := mode, output := k, input := i, baseW := 2000, slopeW := 96, minW := 1000, maxW := 9000,
    flightMin := 6000, flightSpan := 18000, recBase := 30000, recRatio := 16, damperLead := 0 }

/-- Strikers 0 and 1 share the EDGE input 10, striker 2 has the EDGE_LEVEL input 11, damper 12 the input 5. -/
def channels : Vector ChannelSettings 24 :=
  (((Options.factory.channels.set 0 (striker 0 10 .edge)).set 1 (striker 1 10 .edge)).set 2 (striker 2 11 .edgeLevel)).set 12
    { ChannelSettings.unused with kind := .damper, output := 12, input := 5, damperLead := 40000 }

def settings : Options :=
  { Options.factory with
    cls := .percussion, nom := 144, cut := 112, warn := 128, rotorGain := 4, protectStart := 4, bitTime := 2
    channels := channels
    voices := (Options.factory.voices.set 43 (some 2, none)).set 60 (some 0, some 1) }

/-- A TEMPO, a STRIKE, a ROLL and an unknown record at 0x1000; a HOLD at 0x1100; an END at 0x1200. -/
def score : Memory :=
  [(0x1000, 2), (0x1001, 0), (0x1002, 0), (0x1005, 7), (0x1006, 0x53), (0x1007, 0),
   (0x1008, 3), (0x1009, 0), (0x100A, 0), (0x100B, 60), (0x100C, 80),
   (0x1010, 4), (0x1011, 0), (0x1012, 0), (0x1013, 60), (0x1014, 90), (0x1015, 0), (0x1016, 100), (0x1017, 20),
   (0x1018, 9), (0x1019, 0), (0x101A, 0),
   (0x1020, 8), (0x1021, 0), (0x1022, 0)]

/-- The clock of the worked case of 4.4. -/
def clock : Clock :=
  { Clock.atReset with pb := 768000, b := 10000000, pf := 768000, l := 499211, bar := 26 }

/-- The station's own registers in a state, with the deadlines that state has. -/
def station (st : StationState) : Station :=
  { Station.atReset 9 .power false false with
    state := st
    activePiece := if st.playingState then some 3 else none
    returnState := if st = .holding then some .playing else none
    joinDeadline := if st = .listening then some 10000000 else none
    companyDeadline := if st = .rejoining then some 10000000 else none
    keepalive := if st = .offline ∨ st = .listening then none else some 10000000 }

/-- Hold 7 of the worked case of 2.6, with every deadline at 10,000,000. -/
def hold7 : HoldState :=
  { number := 7, pos := 771840, start := 9900000, limit := 10000000, owner := true, ownerDeadline := some 10000000,
    markDeadline := some 10000000 }

/-- A part at local time 10,000,000 in a station state, with nothing going on. -/
def part (st : StationState) : State :=
  { State.reset with
    now := 10000000, straps := 9, station := station st, options := settings, store := score
    parts := (State.reset.parts.set 3 (.valid 0x1000 5)).set 4 .invalid
    clock := { clock with hold := if st = .holding then some hold7 else none }
    rail := { history := List.replicate 8 136, accepted := 136, sampled := true, band := .normal, judging := st ≠ .offline,
              downRun := 0, cutRun := 0, upRun := 0 } }

/-- The moment of most tests. -/
abbrev T : Nat := 10000000

/-- The state a command answers. -/
def after (c : Instr) (s : State) : State :=
  match exec c s with
  | .next t => t
  | .fault _ => State.reset
  | .refused _ => State.reset

/-- Two states agree on what a command changes most: everything but the settings, the roster and the numbered records. -/
def alike (s t : State) : Bool :=
  s.now == t.now && s.resetNLow == t.resetNLow && s.supply == t.supply && s.straps == t.straps && s.station == t.station
    && s.port == t.port && s.clock == t.clock && s.reader == t.reader && s.planner == t.planner && s.confirm == t.confirm
    && s.rotor == t.rotor && s.rail == t.rail && s.handler == t.handler && s.store == t.store

/-- The parts of these tests are steady in every state. -/
theorem test_parts_are_steady : ∀ st ∈ [StationState.offline, .listening, .ready, .countin, .rejoining, .playing, .holding,
    .halted, .service], (part st).steady = true ∧ (part st).awake = true ∧ (part st).store.wf = true := by decide +kernel

/-! ## Ill-formed commands -/

/-- Each check of `Instr.wellFormed` turns away an ill-formed command, and keeps the boundary. -/
theorem test_wellformed_refuses :
    (Instr.joinDeadline (2 ^ 48)).wellFormed = false ∧ (Instr.joinDeadline (2 ^ 48 - 1)).wellFormed = true
      ∧ (Instr.validationComplete 30001).wellFormed = false ∧ (Instr.validationComplete 30000).wellFormed = true
      ∧ (svcOperationCodes.all fun op => !(Instr.unknownSvcOperation T 4 9 op 0).wellFormed) = true
      ∧ (Instr.unknownSvcOperation T 4 9 0x30 0).wellFormed = true
      ∧ (Instr.txAttemptStart T (T + 1)).wellFormed = false ∧ (Instr.txAttemptStart T T).wellFormed = true
      ∧ (Instr.frameLeadingEdge ⟨T, T + 1⟩).wellFormed = false ∧ (Instr.frameUnknownKind ⟨T, T + 1⟩).wellFormed = false
      ∧ (Instr.frameLeadingEdge ⟨T, T⟩).wellFormed = true ∧ (Instr.frameCrcError ⟨T, 10, T + 1⟩).wellFormed = false
      ∧ (Instr.frameFramingError ⟨T, 10, 9⟩).wellFormed = false ∧ (Instr.frameFramingError ⟨T, 10, 10⟩).wellFormed = true
      ∧ (Instr.sensorAssertion 25 10).wellFormed = false ∧ (Instr.sensorRelease 10 10).wellFormed = false
      ∧ (Instr.sensorAssertion 20 10).wellFormed = true
      ∧ (Instr.railSample 1500 0).wellFormed = false ∧ (Instr.railSample 2000 0).wellFormed = true
      ∧ (Instr.reportFrame T 4 34 7 1 0 0).wellFormed = false ∧ (Instr.reportFrame T 4 33 8 1 0 0).wellFormed = false
      ∧ (Instr.reportFrame T 4 33 7 1 0 0).wellFormed = true := by decide +kernel

/-! ## The queue -/

/-- The front command runs on the part with the queue's rest; an empty queue idles; no word spells a command. -/
theorem test_step_takes_the_front (s : State) :
    step { s with pending := [.retentionLoss, .muteEnd 5] } = .next { s with pending := [.muteEnd 5], powered := false }
      ∧ step { s with pending := [] } = .next { s with pending := [] } ∧ s.withFetchWord 8 3 = s := ⟨rfl, rfl, rfl⟩

/-! ## Laws -/

/-- A part with something everywhere meets every law, before and after a command. -/
theorem test_laws_are_met :
    (∀ st ∈ [StationState.ready, .playing, .service],
      (part st).storeCanonical ∧ (part st).operationAllowed ∧ (part st).figuresInRange ∧ (part st).strikesOrdered
        ∧ (part st).confirmOrdered ∧ (part st).rosterExcludesOwn) ∧ (part .playing).settled = true := by
  refine ⟨?_, by decide +kernel⟩
  intro st h
  refine ⟨?_, trivial, ?_, ?_, ?_, rfl⟩
  · revert st; unfold State.storeCanonical; decide +kernel
  · revert st; unfold State.figuresInRange; decide +kernel
  · revert st; unfold State.strikesOrdered; decide +kernel
  · revert st; unfold State.confirmOrdered; decide +kernel

/-- The port, the items and the reference meet their laws; the slot law holds with a claim waiting in CUT. -/
theorem test_port_items_and_slots_meet_their_laws :
    (part .playing).transmitOrdered ∧ ((part .playing).raise srcMiss 3).itemsCounted ∧ (part .rejoining).referenceTaken
      ∧ ({ part .playing with
            rail := { (part .playing).rail with band := .cut }
            planner := { queue := [], claims := [{ due := 5, channel := 12, kind := .damper }] } } : State).slotsLawful := by
  refine ⟨?_, ?_, ?_, ?_⟩
  · refine ⟨by decide, List.Pairwise.nil, by decide, ?_, ?_⟩
    · intro e h
      cases h
    · intro a h
      cases h
  · intro x it h
    revert it
    revert x
    decide +kernel
  · exact ⟨by decide, by decide +kernel⟩
  · unfold State.slotsLawful; decide +kernel

/-- Channel 0 drives, and a strike is armed on it for the end of its recovery. -/
def behind : State :=
  { part .playing with planner :=
      { queue := [{ newStrike 5 60 80 0 (some 1) false with phase := .armed 0 10060000 10060000, width := 2626, flight := 13582 }]
        claims := [] } }.setChannel 0
    { Channel.atReset with pulse := some ⟨10000000, 2705, 13990, 10000000, false, false, false, .normal, 10002705⟩ }

/-- The laws of the position, the claimant list, the timeline list and the striker channels hold with something in each: a hold, two claims due together, two events at one position, and a pulse with a strike armed behind its recovery. -/
theorem test_position_claims_events_and_strikers_meet_their_laws :
    (part .holding).positionLawful
      ∧ ({ part .playing with planner := { queue := [], claims := [⟨5, 2, .strike⟩, ⟨5, 12, .damper⟩] } } : State).claimsOrdered
      ∧ ({ part .playing with reader := { Reader.atReset with timeline := [⟨5, .rotor 1⟩, ⟨5, .endOfPart⟩] } } : State).timelineOrdered
      ∧ behind.strikersLawful ∧ behind.strikesOrdered := by
  have pulses : ∀ c : Chan, (behind.channel c).pulse.all (fun p => decide ((behind.channel c).recoveryEnd = none
      ∧ (behind.settings c).minW ≤ p.width ∧ p.width ≤ (behind.settings c).maxW ∧ p.ends = p.start + p.width)) = true := by
    decide +kernel
  refine ⟨⟨by decide, ?_⟩, ?_, ?_, ⟨by decide +kernel, ?_, List.pairwise_singleton _ _, ?_, ?_⟩, ?_⟩
  · intro h _ hh
    cases hh
    decide
  · unfold State.claimsOrdered
    decide +kernel
  · unfold State.timelineOrdered
    decide +kernel
  · intro c p h
    have := pulses c
    rw [h] at this
    exact of_decide_eq_true this
  · intro e he
    obtain rfl := List.mem_singleton.mp he
    intro c w eff h
    cases h
    refine ⟨by decide +kernel, by decide +kernel, ?_, ?_⟩
    · intro p hp
      cases hp
      decide +kernel
    · intro r hr
      cases hr
  · intro a h
    cases h
  · unfold State.strikesOrdered
    decide +kernel

/-- The position law's hypotheses, met by a playing part that comes to its boundary, where the position goes on; those of the strikers' law, met at the pulse's end. -/
theorem test_position_goes_on_and_the_pulse_ends :
    ((part .playing).figuresInRange ∧ (part .playing).positionLawful ∧ (part .playing).referenceTaken
        ∧ (part .playing).position = 768000 ∧ (after (.beatBoundary 10499211) (part .playing)).position = 775680)
      ∧ behind.slotsLawful ∧ (∀ c p, (behind.channel c).pulse = some p → (after (.pulseEnd 10002705 0) behind).now ≤ p.ends)
      ∧ ((after (.pulseEnd 10002705 0) behind).channel 0).recoveryEnd = some 10035410 := by
  refine ⟨⟨?_, ⟨by decide, fun h _ hh => ?_⟩, ⟨fun _ => rfl, by decide +kernel⟩, by decide +kernel, by decide +kernel⟩, ?_, ?_,
    by decide +kernel⟩
  · unfold State.figuresInRange
    decide +kernel
  · cases hh
  · unfold State.slotsLawful
    decide +kernel
  · have pulses : ∀ c : Chan,
        (behind.channel c).pulse.all (fun p => decide ((after (.pulseEnd 10002705 0) behind).now ≤ p.ends)) = true := by
      decide +kernel
    intro c p h
    have := pulses c
    rw [h] at this
    exact of_decide_eq_true this

/-- A running program keeps the law of the service handler; a protected sector is one at or above the protect start. -/
theorem test_running_program_is_allowed :
    ({ part .service with handler := .programming 0xFF8 0 4 (T + 80) } : State).operationAllowed
      ∧ settings.protectStart ≤ sectorOf 0x1000 ∧ ¬settings.protectStart ≤ sectorOf 0xFFF := by
  refine ⟨⟨rfl, by decide, by decide, by decide⟩, by decide, by decide⟩

/-! ## Reset and supply -/

/-- A part held by both conditions of reset. -/
def heldPart : State := { part .offline with now := 0, resetNLow := true, supply := .low }

/-- RESET_N and a supply fall hold a part that runs, and change a held part's pins alone. -/
theorem test_reset_and_supply_hold :
    (part .playing).held = false ∧ heldPart.held = true
      ∧ (after (.resetNAssert T) (part .playing)).held = true
      ∧ (after (.resetNAssert T) (part .playing)).station.state = .offline
      ∧ (after (.resetNAssert T) (part .playing)).store = score
      ∧ (after (.supplyFall T) (part .playing)).supply = .low ∧ (after (.supplyFall T) (part .playing)).now = 0
      ∧ alike (after (.supplyFall T) heldPart) heldPart := by decide +kernel

/-- The last condition to end releases the part with its own cause. -/
theorem test_release_samples_straps_and_cause :
    let pinLow : State := { heldPart with supply := .good }
    let low : State := { heldPart with resetNLow := false }
    (after (.resetNRelease 5) pinLow).station.own = 5 ∧ (after (.resetNRelease 5) pinLow).station.cause = .pin
      ∧ (after (.resetNRelease 5) pinLow).held = false
      ∧ alike (after (.resetNRelease 5) heldPart) { heldPart with resetNLow := false, straps := 5 }
      ∧ alike (after (.resetNRelease 5) low) low
      ∧ (after (.supplyRise 6) low).station.cause = .supply ∧ (after (.supplyRise 6) low).station.own = 6
      ∧ (after (.supplyRise 6) (after .retentionLoss low)).station.cause = .power
      ∧ (after (.supplyRise 6) heldPart).held = true ∧ alike (after (.supplyRise 6) pinLow) pinLow := by decide +kernel

/-- A reset that interrupts a program or an erase: the hypotheses of the statement, and the reset. -/
theorem test_reset_interrupts_the_store :
    (∀ h ∈ [Handler.programming 0x1000 0 4 (T + 80), .erasing 0x1000 4 (T + 20000)],
      ({ part .service with handler := h } : State).held = false
        ∧ (after (.supplyFall T) { part .service with handler := h }).freeCount = 1
        ∧ (after (.resetNAssert T) { part .service with handler := h }).freeCount = 1)
      ∧ (part .service).store.wf = true := by decide +kernel

/-- Held in reset a part does nothing but note its buttons' levels; in OFFLINE frames do nothing. -/
theorem test_held_and_offline_parts_stand_still :
    alike (after (.stopFrame T 4 0) heldPart) heldPart ∧ alike (after (.beatBoundary T) heldPart) heldPart
      ∧ (after (.buttonInputEdge T .startIn true) heldPart).station.startButton.asserted = true
      ∧ (after (.buttonInputEdge T .stopIn true) heldPart).station.stopButton.asserted = true
      ∧ alike (after (.stopFrame T 4 0) (part .offline)) (part .offline)
      ∧ alike (after (.queryFrame T 4 9) (part .offline)) (part .offline)
      ∧ alike (after (.partReset T 4 9 0) (part .offline)) (part .offline)
      ∧ serviceRequestOf 4 (.partReset T 4 9 0) = some T := by decide +kernel

/-! ## The life of the station -/

/-- An option block of default settings with no channel in use, and its CRC. -/
def block : Memory :=
  [(0x00, 0), (0x01, 10), (0x02, 3), (0x03, 0), (0x04, 2), (0x05, 4), (0x06, 2), (0x07, 7), (0x08, 128), (0x09, 8),
    (0x0A, 7), (0x0B, 161), (0x0C, 32), (0x0D, 4), (0x0E, 4), (0x0F, 0), (0x10, 2), (0x11, 58), (0x12, 152), (0x13, 8),
    (0x14, 144), (0x15, 8), (0x16, 96), (0x17, 120), (0x18, 4), (0x19, 11), (0x1A, 184), (0x1B, 23), (0x1C, 112), (0x1D, 2),
    (0x1E, 4), (0x1F, 64)]
    ++ (List.range 32).map (fun n => (0x20 + n, 0x80)) ++ (List.range 24).map (fun c => (0x200 + 16 * c, 0))
    ++ [(0x3FE, 239), (0x3FF, 170)]

/-- `k n`, with the number looked at first. -/
def withNumber {α : Type} (n : Nat) (k : Nat → α) : α :=
  match n with
  | 0 => k 0
  | m + 1 => k (m + 1)

theorem withNumber_eq {α : Type} (n : Nat) (k : Nat → α) : withNumber n k = k n := by cases n <;> rfl

/-- The CRC of `n` bytes from `a` on, number by number. -/
def crcRun (m : Memory) : Nat → Nat → Nat → Nat
  | 0, _, c => c
  | n + 1, a, c => withNumber (crcByte (BitVec.ofNat 16 c) (m.read a)).toNat fun c => withNumber (a + 1) fun a => crcRun m n a c

theorem crcRun_eq (m : Memory) : ∀ (n a : Nat) (c : BitVec 16), crcRun m n a c.toNat = ((m.bytes a n).foldl crcByte c).toNat
  | 0, _, _ => rfl
  | n + 1, a, c => by
    rw [crcRun, withNumber_eq, withNumber_eq, crcRun_eq m n (a + 1)]
    simp only [BitVec.ofNat_toNat, BitVec.setWidth_eq, Memory.bytes, List.foldl_cons]

/-- The block is valid, so a store that holds it meets the hypothesis of a validation with a block (R2, R168). -/
theorem test_block_is_valid : (parseOptions block).map Options.presenceTimeout = some 1000000 := by
  have h : crcRun block 0x3FE 0 (0xFFFF : BitVec 16).toNat = 61354 := by decide +kernel
  rw [crcRun_eq] at h
  unfold parseOptions optionCrcOk crc16
  rw [h]
  decide +kernel

/-- An empty store has no valid block. -/
theorem test_blank_block : parseOptions [] = none ∧ (part .offline).steady = true := by decide +kernel

/-- The CRC of the catalogue's check string, "123456789". -/
theorem test_crc : crc16 [0x31, 0x32, 0x33, 0x34, 0x35, 0x36, 0x37, 0x38, 0x39] = 0x29B1 := by decide +kernel

/-- A part of one record with its CRC, one with a wrong CRC, and one with no mark. -/
theorem test_part_directory :
    let entry (crc : Nat) : Memory :=
      [(0x400, 0xA5), (0x402, 8), (0x403, 0), (0x404, 0), (0x405, 1), (0x406, BitVec.ofNat 8 (crc / 256)),
        (0x407, BitVec.ofNat 8 crc), (0x800, 8), (0x801, 0), (0x802, 0), (0x803, 0), (0x804, 0), (0x805, 0), (0x806, 0), (0x807, 0)]
    (checkParts (entry (crc16 [8, 0, 0, 0, 0, 0, 0, 0]).toNat))[(0 : Piece)] = .valid 0x800 1
      ∧ (checkParts (entry 0))[(0 : Piece)] = .invalid ∧ (checkParts (entry 0))[(1 : Piece)] = .noPart := by decide +kernel

/-- With no valid block the factory settings and SERVICE; outside OFFLINE nothing. -/
theorem test_validation_without_a_block :
    (after (.validationComplete T) (part .offline)).station.state = .service
      ∧ (after (.validationComplete T) (part .offline)).options.cls = .service
      ∧ (after (.validationComplete T) (part .offline)).station.keepalive = some (10000000 + 250000)
      ∧ alike (after (.validationComplete T) (part .ready)) (part .ready) := by decide +kernel

/-- The join, keepalive and company deadlines act at their moment. -/
theorem test_deadlines_of_the_station :
    (after (.joinDeadline T) (part .listening)).station.state = .ready
      ∧ (after (.joinDeadline T) (part .listening)).port.unsent.map TxEntry.frame = [.announce]
      ∧ (after (.joinDeadline T) (part .listening)).station.keepalive = some 10250000
      ∧ alike (after (.joinDeadline T) (part .ready)) (part .ready)
      ∧ (after (.keepaliveDeadline T) (part .ready)).station.keepalive = some 10250000
      ∧ (after (.keepaliveDeadline T) (part .ready)).port.unsent.length = 1
      ∧ (after (.companyDeadline T) (part .rejoining)).station.state = .ready
      ∧ alike (after (.companyDeadline T) (part .playing)) (part .playing) := by decide +kernel

/-- A peer of piece 3 that is PLAYING, with the mark A of the worked case of 2.7, its presence deadline at 10,000,000. -/
def peer : RosterEntry :=
  { cls := some .marimba, pinned := true, announced := some .playing, piece := .piece 3, presence := 10000000,
    lastMark := some { pm := 1536000, lm := 500000, state := 5, piece := 3, received := 9900000, offset := none, consumed := true },
    frames := 7, outliers := 0, unusable := 0 }

/-- The part with a peer in slot 4. -/
def peered (st : StationState) : State := ((part st).setPeer 4 (some peer)).keepCompany

theorem test_presence_deadline :
    (peered .ready).steady = true ∧ (after (.presenceDeadline T 4) (peered .ready)).peer 4 = none
      ∧ ((after (.presenceDeadline T 4) (peered .ready)).item srcPeerLost).isSome = true
      ∧ alike (after (.presenceDeadline T 5) (peered .ready)) (peered .ready)
      ∧ (after (.presenceDeadline T 4) ((part .ready).setPeer 4 (some { peer with presence := 10000001 }))).peer 4
          = some { peer with presence := 10000001 } := by decide +kernel

/-! ### Buttons -/

/-- The part with both qualifiers in a state since 20 ms. -/
def withButtons (st : StationState) (q : QualState) (level : Bool) : State :=
  (part st).setStation { (part st).station with startButton := ⟨q, level, 9980000⟩, stopButton := ⟨q, level, 9980000⟩ }

theorem test_button_edge :
    (after (.buttonInputEdge T .startIn true) (withButtons .ready .released false)).station.startButton = ⟨.pressing, true, 10000000⟩
      ∧ (after (.buttonInputEdge T .stopIn false) (withButtons .ready .pressing true)).station.stopButton = ⟨.released, false, 10000000⟩
      ∧ (after (.buttonInputEdge T .stopIn false) (withButtons .ready .pressed true)).station.stopButton = ⟨.pressed, false, 10000000⟩ := by
  decide +kernel

theorem test_button_press :
    (after (.startInPress T) (withButtons .ready .pressing true)).port.unsent.map TxEntry.frame = [.start 0 1 4 500000]
      ∧ (after (.startInPress T) (withButtons .playing .pressing true)).port.unsent = []
      ∧ (after (.startInPress T) (withButtons .playing .pressing true)).station.startButton.state = .pressed
      ∧ (after (.stopInPress T) (withButtons .playing .pressing true)).port.unsent.map TxEntry.frame = [.stop 1]
      ∧ (after (.stopInPress T) (withButtons .ready .pressing true)).port.unsent = []
      ∧ alike (after (.stopInPress T) (withButtons .ready .released true)) (withButtons .ready .released true) := by decide +kernel

theorem test_button_release :
    (after (.buttonReleaseQualified T .startIn) (withButtons .ready .pressed false)).station.startButton.state = .released
      ∧ (after (.buttonReleaseQualified T .stopIn) (withButtons .ready .pressed false)).station.stopButton.state = .released
      ∧ alike (after (.buttonReleaseQualified T .stopIn) (withButtons .ready .pressed true)) (withButtons .ready .pressed true) := by
  decide +kernel

/-! ## Frames of other stations -/

/-- A frame with this station's own number is a clash: HALTED from PLAYING, an item alone in SERVICE. -/
theorem test_clash :
    (after (.stopFrame T 9 1) (part .playing)).station.state = .halted
      ∧ (after (.stopFrame T 9 1) (part .playing)).station.activePiece = none
      ∧ ((after (.stopFrame T 9 1) (part .playing)).item srcClash).map AttentionItem.firstDetail = some 4
      ∧ (after (.stopFrame T 9 1) (part .playing)).faultOut = true
      ∧ (after (.stopFrame T 9 1) (part .service)).station = (part .service).station
      ∧ ((after (.stopFrame T 9 1) (part .service)).item srcClash).isSome = true := by decide +kernel

/-- The other kinds clash as well, with their own kind codes. -/
theorem test_clash_of_every_kind :
    (∀ k ∈ [(Instr.markFrame T 9 0 500000 1 5 3 0, 2), (.startFrame T 9 3 1 4 500000, 3), (.queryFrame T 9 4, 8),
        (.partReset T 9 9 0, 9), (.svcReplyFrame T 9 4 0 0 0, 10)],
      frameOf k.1 = some (T, 9, k.2)
        ∧ ((after k.1 (part .ready)).item srcClash).map AttentionItem.firstDetail = some (BitVec.ofNat 16 k.2)
        ∧ (after k.1 (part .ready)).station.state = .halted) := by decide +kernel

/-- A frame that began less than 12 bit times after the moment the port waits from reaches no block. -/
theorem test_unheard_frame :
    let s : State := { part .playing with port := { Port.atReset with acceptFrom := 9999901 } }
    s.steady = true ∧ ¬s.takesUp T (frameTime 4 2) ∧ s.takesUp (T + 1) (frameTime 4 2)
      ∧ (after (.stopFrame T 4 1) s).station.state = .playing ∧ (after (.stopFrame T 4 1) s).port.acceptFrom = 10000022
      ∧ (after (.stopFrame (T + 1) 4 1) s).station.state = .ready := by
  unfold State.takesUp
  decide +kernel

/-- The frames of these tests are heard: the part is steady, not in OFFLINE, and 4 is not its own number. -/
theorem test_parts_hear : ∀ st ∈ [StationState.listening, .ready, .countin, .rejoining, .playing, .holding, .halted, .service],
    ∀ kind ∈ [1, 2, 3, 4, 5, 6, 7, 8, 9, 10], (part st).hears T 4 kind := by
  unfold State.hears State.takesUp
  decide +kernel

theorem test_report_and_reply_frames :
    ((after (.reportFrame T 4 33 7 1 0 0) (part .ready)).peer 4).map RosterEntry.frames = some 1
      ∧ ((after (.svcReplyFrame T 4 9 0 0 0) (peered .ready)).peer 4).map RosterEntry.frames = some 8
      ∧ ((after (.svcReplyFrame T 4 9 0 0 0) (peered .ready)).peer 4).map RosterEntry.presence = some 11000000 := by
  decide +kernel

theorem test_announce :
    ((after (.announceFrame T 4 3 5 15 0) (part .ready)).peer 4).map (fun e => (e.cls, e.announced, e.piece))
        = some (some .percussion, some .playing, .piece 15)
      ∧ ((after (.announceFrame T 4 0 9 16 0) (part .ready)).peer 4).map (fun e => (e.cls, e.announced, e.piece))
        = some (none, none, .unknown)
      ∧ ((after (.announceFrame T 4 3 2 0xFF 0) (peered .ready)).peer 4).map (fun e => (e.cls, e.announced, e.piece))
        = some (some .marimba, some .ready, .none)
      ∧ ((after (.announceFrame T 4 3 2 0xFF 0) (peered .ready)).item srcCapabilityMismatch).isSome = true := by decide +kernel

/-- A part that reads bar 26 with two planned strikes, the first of them in that bar. -/
def strike (p : Pos) : StrikeEntry :=
  { newStrike p 60 80 0 (some 1) false with projected := some 10236024, width := 2626, flight := 13582 }

/-- The strike of the worked case, armed on channel 0. -/
def armedStrike : StrikeEntry := { strike 771840 with phase := .armed 0 10235616 10235616, width := 2705, flight := 13990 }

def reading : State :=
  { part .playing with
    reader := { Reader.atReset with
      state := .reading, cursor := some { index := 0, pos := 775680 }, barMap := [(737280, 25), (768000, 26)]
      meter := some { barStart := 768000, bpb := 4, bar := 26, change := none } }
    planner := { queue := [strike 771840], claims := [] } }

theorem test_mute :
    (after (.muteFrame T 4 0x200 3 26 26 1) reading).planner.queue = []
      ∧ (after (.muteFrame T 4 0x200 3 26 26 1) reading).reader.mute = some ⟨3, 26, 26⟩
      ∧ (after (.muteFrame T 4 0x200 3 27 0xFFFF 1) reading).planner.queue.length = 1
      ∧ (after (.muteFrame (T + 302) 4 0x200 0 0 0 0) (after (.muteFrame T 4 0x200 3 26 26 1) reading)).reader.mute = none
      ∧ (after (.muteFrame (T + 301) 4 0x200 0 0 0 0) (after (.muteFrame T 4 0x200 3 26 26 1) reading)).reader.mute = some ⟨3, 26, 26⟩
      ∧ (after (.muteFrame T 4 0xFFFFFDFF 3 26 26 1) reading).reader.mute = none ∧ reading.steady = true := by decide +kernel

theorem test_query :
    (after (.queryFrame T 4 9) ((part .playing).raise srcMiss 0)).port.unsent.map TxEntry.frame = [.report (some srcMiss) (some 4)]
      ∧ (after (.queryFrame T 4 8) (part .playing)).port.unsent = [] := by decide +kernel

/-- The attention order: CLASH before a promoted source, slot 1 before slot 2, then by number. -/
theorem test_attention_order :
    let o := { settings with promo1 := 20, promo2 := 19 }
    attentionBefore o srcClash srcMiss = true ∧ attentionBefore o srcMiss 18 = true ∧ attentionBefore o 18 2 = true
      ∧ attentionBefore o 3 4 = true ∧ attentionBefore o srcMiss srcMiss = false ∧ effectiveLevel o srcMiss = 6 := by decide +kernel

/-! ### START, STOP and RELEASE -/

/-- A START for piece 3 begins its count-in four beats before bar 2 in 4/4, and enables a disabled channel. -/
theorem test_start_begins_the_count_in :
    let s := (peered .ready).setChannel 2 { (part .ready).channel 2 with disabled := some .misses, misses := 3 }
    let s := s.setPeer 4 ((s.peer 4).map fun e => { e with lastMark := e.lastMark.map fun m =>
      { m with offset := some 5, consumed := false } })
    let s := s.setClock { s.clock with selfOutliers := 1 }
    let t := after (.startFrame T 4 3 2 4 500000) s
    s.steady = true ∧ s.parts[(3 : Piece)] = .valid 0x1000 5
      ∧ t.station.state = .countin ∧ t.station.activePiece = some 3 ∧ t.clock.pb = 0 ∧ t.clock.l = 500000
      ∧ t.clock.start = some { pos := 30720, found := none } ∧ t.reader.state = .scanning
      ∧ t.reader.scan = some (s.scanOf 0x1000 5 (.startBar 2)) ∧ s.scanOf 0x1000 5 (.startBar 2)
        = ⟨.startBar 2, ⟨0, 0⟩, ⟨0, 0⟩, ⟨0, 4, 1, none⟩, true, none, none, Vector.replicate 24 none, none, []⟩
      ∧ t.clock.selfOutliers = 0 ∧ (t.peer 4).bind (fun e => e.lastMark.map LastMark.consumed) = some true
      ∧ (t.channel 2).disabled = none ∧ (t.channel 2).misses = 0 := by decide +kernel

theorem test_other_starts :
    ((after (.startFrame T 4 3 1 4 500000) (part .playing)).item srcStartIgnored).isSome = true
      ∧ alike (after (.startFrame T 4 3 1 4 500000) (part .halted)) ((part .halted).heard T 4)
      ∧ alike (after (.startFrame T 4 16 1 4 500000) (part .ready)) ((part .ready).heard T 4)
      ∧ (part .ready).parts[(4 : Piece)] = .invalid ∧ (part .ready).parts[(5 : Piece)] = .noPart
      ∧ ((after (.startFrame T 4 4 1 4 500000) (part .ready)).item srcPartInvalid).map AttentionItem.firstDetail = some 4
      ∧ alike (after (.startFrame T 4 5 1 4 500000) (part .ready)) ((part .ready).heard T 4) := by decide +kernel

theorem test_stop_ends_the_piece :
    (after (.stopFrame T 4 1) reading).station.state = .ready ∧ (after (.stopFrame T 4 1) reading).planner.queue = []
      ∧ (after (.stopFrame T 4 1) reading).reader.state = .idle
      ∧ alike (after (.stopFrame T 4 1) (part .ready)) ((part .ready).heard T 4) := by decide +kernel

/-- The clean-up takes the strikes' claims and the raised damper's along, withdraws the MARK, and quiets the inputs of the records up to their close times; so does the company deadline, and a clash as far as the claims go. -/
theorem test_clean_up_withdraws :
    let r (i : Chan) (n : Time) : ConfirmRecord := ⟨0, i, n, n, n + 6000, false, false, false, false, false, .normal⟩
    let s (st : StationState) : State := { part st with
      planner := { queue := [armedStrike], claims := [⟨5, 0, .strike⟩, ⟨6, 12, .damper⟩] }
      dampers := (part st).dampers.set 12 ⟨true, .lowered, none, none⟩
      options := { settings with driveSlots := 0 }
      confirm := [r 10 10003000, r 11 10004000, r 10 10005000]
      port := { Port.atReset with unsent := [{ frame := .mark, cls := 2, attempts := 0, queuedAt := 0 }] }
      inputs := (part st).inputs.set 11 { SensorInput.atReset with quietUntil := some 10020000 } }
    let ended (s t : State) : Prop := t.station.state = .ready ∧ t.planner = { queue := [], claims := [] } ∧ t.port.unsent = []
      ∧ t.confirm = [] ∧ (t.input 10).quietUntil = some 10011000 ∧ (t.input 11).quietUntil = some 10020000 ∧ s.claimsWithdrawn t
      ∧ s.recordsAbandoned t
    (∀ st ∈ [StationState.playing, .rejoining], (s st).steady = true)
      ∧ ended (s .playing) (after (.stopFrame T 4 1) (s .playing)) ∧ ended (s .rejoining) (after (.companyDeadline T) (s .rejoining))
      ∧ (after (.stopFrame T 9 1) (s .playing)).planner.claims = [] := by
  unfold State.claimsWithdrawn State.recordsAbandoned
  decide +kernel

/-- The worked case of 2.6: station 3 releases hold 7 at 20,260,120, and its B becomes 20,010,120. -/
theorem test_release_of_the_caesura :
    let s := { part .holding with
      clock := { (part .holding).clock with pb := 1536000, l := 500000, hold := some { hold7 with pos := 1539840 } } }
    s.steady = true
      ∧ (after (.releaseFrame 20260120 4 3 7) s).clock.b = 20010120 ∧ (after (.releaseFrame 20260120 4 3 7) s).clock.lastPassed = some 7
      ∧ (after (.releaseFrame 20260120 4 3 7) s).station.state = .playing
      ∧ (after (.releaseFrame 20260120 4 3 8) s).clock.remembered = some 8
      ∧ ((after (.releaseFrame 20260120 4 3 6) s).item srcLateRelease).isSome = true := by decide +kernel

theorem test_other_releases :
    (after (.releaseFrame T 4 3 7) (part .playing)).clock.remembered = some 7
      ∧ ((after (.releaseFrame T 4 3 7) { part .playing with clock := clock.passHold 7 }).item srcLateRelease).isSome = true
      ∧ (after (.releaseFrame T 4 3 8) { part .playing with clock := clock.passHold 7 }).clock.remembered = some 8
      ∧ alike (after (.releaseFrame T 4 2 7) (part .playing)) ((part .playing).heard T 4)
      ∧ alike (after (.releaseFrame T 4 3 7) (part .ready)) ((part .ready).heard T 4) := by decide +kernel

/-! ### MARK -/

/-- A mark at the capture range is an offset, one subtick beyond it an outlier, one for another piece unusable. -/
theorem test_mark_gives_an_offset :
    (part .playing).position = 768000
      ∧ (after (.markFrame T 4 769920 500000 26 5 3 0) (part .playing)).clock.marks = [⟨4, false, .positive⟩]
      ∧ (((after (.markFrame T 4 769920 500000 26 5 3 0) (part .playing)).peer 4).bind RosterEntry.lastMark).bind LastMark.offset
          = some 1920
      ∧ (after (.markFrame T 4 766079 500000 26 5 3 0) (part .playing)).clock.marks = [⟨4, true, .negative⟩]
      ∧ ((after (.markFrame T 4 766079 500000 26 5 3 0) (part .playing)).item srcOutlier).isSome = true
      ∧ ((after (.markFrame T 4 769920 500000 26 5 2 0) (part .playing)).peer 4).map RosterEntry.unusable = some 1
      ∧ (after (.markFrame T 4 771840 500000 26 6 3 7) (part .holding)).clock.marks = [⟨4, false, .zero⟩]
      ∧ ((after (.markFrame T 4 771840 500000 26 6 3 8) (part .holding)).peer 4).map RosterEntry.unusable = some 1 := by
  decide +kernel

/-- A rejoining station with no position. -/
def lost : State := { part .rejoining with clock := { clock with isSet := false } }

/-- Marks send listening and ready stations to REJOINING, serve the reference there, and are kept elsewhere. -/
theorem test_mark_of_a_piece_under_way :
    (after (.markFrame T 4 1536000 500000 50 6 3 7) (part .listening)).station.state = .rejoining
      ∧ (after (.markFrame T 4 1536000 500000 50 6 3 7) (part .listening)).station.joinDeadline = none
      ∧ (after (.markFrame T 4 1536000 500000 50 5 3 0) (part .ready)).station.activePiece = some 3
      ∧ (after (.markFrame T 4 1536000 500000 50 6 3 7) (part .ready)).station.state = .ready
      ∧ (after (.markFrame T 4 1536000 500000 50 5 4 0) (part .ready)).station.state = .ready
      ∧ (after (.markFrame T 4 1536000 500000 50 5 3 0) (part .halted)).station.state = .halted
      ∧ lost.steady = true ∧ (after (.markFrame T 4 1536000 500000 50 5 3 0) lost).clock.isSet = true
      ∧ (after (.markFrame T 4 768100 500000 50 5 3 0) (part .rejoining)).clock.marks = [⟨4, false, .positive⟩] := by
  decide +kernel

/-- A MARK that cannot serve the reference leaves the station with no position, whatever the clock held; one that can sets it at once. -/
theorem test_mark_unsets_the_position :
    let s : State := { part .ready with station := station .listening, planner := { queue := [strike 771840], claims := [⟨5, 0, .strike⟩, ⟨6, 12, .damper⟩] } }
    let t := after (.markFrame T 4 1536000 500000 50 6 3 7) s
    let f := after (.markFrame T 4 1536000 500000 50 5 3 0) s
    s.hears T 4 2 ∧ s.awake = true ∧ s.clock.isSet = true ∧ (s.advance T).rejoinsUnset t (some 3)
      ∧ f.clock.isSet = true ∧ f.reader.scan = some (f.scanOf 0x1000 5 .entry) := by
  unfold State.hears State.takesUp State.rejoinsUnset
  decide +kernel

/-- In REJOINING with the position set: a mark beyond the capture range, one of another piece, and one of another state; the last two with the position unset. -/
theorem test_marks_judged_in_rejoining :
    let s := part .rejoining
    let t := after (.markFrame T 4 1536000 500000 50 5 3 0) s
    s.clock.isSet = true ∧ s.hears T 4 2 ∧ t.clock.marks = [⟨4, true, .positive⟩] ∧ (t.item srcOutlier).map AttentionItem.firstDetail = some 4
      ∧ (t.peer 4).map RosterEntry.outliers = some 1
      ∧ ((after (.markFrame T 4 768100 500000 50 5 4 0) s).peer 4).map RosterEntry.unusable = some 1
      ∧ ((after (.markFrame T 4 768100 500000 50 6 3 7) s).peer 4).map RosterEntry.unusable = some 1
      ∧ lost.hears T 4 2 ∧ (after (.markFrame T 4 768100 500000 50 6 3 7) lost).clock.isSet = false
      ∧ ((after (.markFrame T 4 768100 500000 50 6 3 7) lost).peer 4).map RosterEntry.unusable = some 1
      ∧ ((after (.markFrame T 4 768100 500000 50 5 4 0) lost).peer 4).map RosterEntry.unusable = some 1 := by
  unfold State.hears State.takesUp
  decide +kernel

/-- The worked case of 2.7: the rejoin reference of two marks. -/
theorem test_rejoin_reference :
    let b : RosterEntry := { peer with lastMark := some { pm := 1536032, lm := 499000, state := 5, piece := 3, received := 9960000, offset := none, consumed := true } }
    let s := (lost.setPeer 4 (some peer)).setPeer 5 (some b)
    let s := { s with options := { s.options with weights := (s.options.weights.set 4 (some 4)).set 5 (some 2) } }
    s.referenceReady = true ∧ s.referenceClock.pf = 1537240 ∧ s.referenceClock.l = 499667 ∧ s.referenceClock.tScore = 499667
      ∧ s.referenceClock.pb = 1536000 ∧ s.referenceClock.b = 10000000 - 80675
      ∧ s.referenceClock.entryThreshold = some 1551360 ∧ s.rejoinTest.clock.nextBoundary = 10000000 + 418992 := by decide +kernel

/-! ## Service requests -/

/-- The data of the last reply in the queue. -/
def replyOf (s : State) : Option (SvcStatus × BitVec 64) :=
  match s.port.unsent.getLast?.map TxEntry.frame with
  | some (.svcReply _ st _ d _) => some (st, d)
  | _ => none

/-- A request for another station, one to an occupied handler, and one of an unknown code. -/
theorem test_requests_not_carried_out :
    let busy : State := { part .service with handler := .programming 0 0 4 (T + 80) }
    alike (after (.readStore T 4 8 0) (part .ready)) ((part .ready).heard T 4) ∧ busy.steady = true
      ∧ replyOf (after (.readStore T 4 9 0) busy) = some (.busy, 0)
      ∧ replyOf (after (.partReset T 4 9 0) busy) = some (.busy, 0)
      ∧ replyOf (after (.unknownSvcOperation T 4 9 0x30 0) (part .ready)) = some (.range, 0) := by decide +kernel

theorem test_read_store :
    replyOf (after (.readStore T 4 9 0x1000) (part .playing)) = some (.done, 0x020000FFFF075300)
      ∧ replyOf (after (.readStore T 4 9 65528) (part .playing)) = some (.done, 0xFFFFFFFFFFFFFFFF)
      ∧ replyOf (after (.readStore T 4 9 65529) (part .playing)) = some (.range, 0) := by decide +kernel

theorem test_program_and_erase_are_taken :
    (after (.programStore T 4 9 0xFF8 5) (part .service)).handler = .programming 0xFF8 5 4 10000080
      ∧ replyOf (after (.programStore T 4 9 0xFFC 5) (part .service)) = some (.align, 0)
      ∧ replyOf (after (.programStore T 4 9 0x1000 5) (part .service)) = some (.protectedSector, 0)
      ∧ replyOf (after (.programStore T 4 9 0xFF8 5) (part .ready)) = some (.wrongState, 0)
      ∧ (after (.eraseSector T 4 9 0xFFF) (part .service)).handler = .erasing 0xFFF 4 10020000
      ∧ replyOf (after (.eraseSector T 4 9 0x1000) (part .service)) = some (.protectedSector, 0)
      ∧ replyOf (after (.eraseSector T 4 9 0) (part .halted)) = some (.wrongState, 0) := by decide +kernel

/-- A program and an erase end at their moment; a completion with no operation does nothing. -/
theorem test_store_operations_complete :
    let p : State := { part .service with handler := .programming 0x1008 0x0000FFFFFFFFFFFF 4 T }
    let e : State := { part .service with handler := .erasing 0x1008 4 T }
    p.steady = true ∧ e.steady = true ∧ p.store.wf = true
      ∧ (after (.programComplete T) p).store.read 0x1008 = 0 ∧ (after (.programComplete T) p).store.read 0x100B = 60
      ∧ replyOf (after (.programComplete T) p) = some (.failed, 0x0000003C50FFFFFF)
      ∧ (after (.eraseComplete T) e).store = [] ∧ replyOf (after (.eraseComplete T) e) = some (.done, 0x0400000000000000)
      ∧ alike (after (.programComplete T) e) e ∧ alike (after (.eraseComplete T) p) p
      ∧ alike (after (.programComplete T) { p with handler := .programming 0 0 4 (T + 1) })
          { p with handler := .programming 0 0 4 (T + 1) } := by decide +kernel

theorem test_service_changes_the_station :
    (after (.enterService T 4 9 0) (part .ready)).station.state = .service
      ∧ (after (.enterService T 4 9 0) (part .halted)).station.state = .service
      ∧ replyOf (after (.enterService T 4 9 0) (part .playing)) = some (.wrongState, 0)
      ∧ (after (.clearHalt T 4 9 0) (part .halted)).station.state = .listening
      ∧ (after (.clearHalt T 4 9 0) (part .halted)).station.joinDeadline = some 11000000
      ∧ replyOf (after (.clearHalt T 4 9 0) (part .ready)) = some (.wrongState, 0)
      ∧ (after (.leaveService T 4 9 0) (part .service)).handler = .leaving false
      ∧ replyOf (after (.leaveService T 4 9 0) (part .ready)) = some (.wrongState, 0)
      ∧ (after (.partReset T 4 9 0) (part .playing)).station.cause = .service
      ∧ (after (.partReset T 4 9 0) (part .playing)).now = 0 := by decide +kernel

theorem test_enable_channel :
    let s := ((part .ready).setChannel 2 { (part .ready).channel 2 with disabled := some .stuck, misses := 3 }).setInput 11
      { SensorInput.atReset with asserted := true, stuck := true, latch := some ⟨9000000, true⟩ }
    s.steady = true ∧ ((after (.enableChannel T 4 9 2) s).channel 2).disabled = none
      ∧ ((after (.enableChannel T 4 9 2) s).input 11).stuckDeadline = some 10200000
      ∧ replyOf (after (.enableChannel T 4 9 12) s) = some (.done, 0) ∧ replyOf (after (.enableChannel T 4 9 23) s) = some (.done, 0)
      ∧ replyOf (after (.enableChannel T 4 9 24) s) = some (.range, 0) := by decide +kernel

/-- An entry deferred on the channel that ENABLE_CHANNEL enables: it arms at its fire time, or when the channel is free, is deferred again behind an armed strike, is dropped where it would be too late, and waits PLANNED in REJOINING (R75, R98). -/
theorem test_enable_releases_the_deferred_entry :
    let off (free : Option Time) : Channel := { Channel.atReset with disabled := some .misses, recoveryEnd := free }
    let y : StrikeEntry := { strike 771840 with phase := .planned true, other := none }
    let s (q : List StrikeEntry) (free : Option Time) : State :=
      { part .playing with planner := { queue := q, claims := [] } }.setChannel 0 (off free)
    let phase (s : State) := (after (.enableChannel T 4 9 0) s).planner.queue.map StrikeEntry.phase
    let before : StrikeEntry := { strike 771000 with phase := .armed 0 10235000 10235000, width := 2705, flight := 13990 }
    (s [y] none).hears T 4 9 ∧ (s [before, y] none).hears T 4 9 ∧ (s [y] none).freeAt T 0 = T ∧ y.deferredOn [0] = true
      ∧ phase (s [y] none) = [.armed 0 10236144 10236144]
      ∧ phase (s [y] (some 10251144)) = [.armed 0 10236144 10251144] ∧ phase (s [y] (some 10251145)) = []
      ∧ ((after (.enableChannel T 4 9 0) (s [y] (some 10251145))).channel 0).dropped = 1
      ∧ phase (s [before, y] none) = [.armed 0 10235000 10235000, .planned true]
      ∧ phase { s [y] none with station := { station .rejoining with companyDeadline := some 10500000 } } = [.planned false]
      ∧ replyOf (after (.enableChannel T 4 9 0) (s [y] none)) = some (.done, 0) := by
  unfold State.hears State.takesUp
  decide +kernel

/-- ENABLE_CHANNEL with an earlier entry due at that moment: the earlier one takes the channel, and the deferred one waits again behind it (R73). -/
theorem test_enable_arms_in_queue_order :
    let x := (part .playing).plannedStrike 768230 60 80 0 none false
    let y : StrikeEntry := { strike 771840 with phase := .planned true, other := none }
    let s : State :=
      { part .playing with planner := { queue := [x, y], claims := [] } }.setChannel 0 { Channel.atReset with disabled := some .misses }
    s.hears T 4 9 ∧ s.handler = .unoccupied ∧ (s.settings 0).kind = .striker ∧ s.strikesOrdered
      ∧ (s.advance T).armDue x = true ∧ y.projected ≠ none ∧ y.deferredOn [0] = true ∧ x.deferredOn [0] = false
      ∧ s.armedOn 0 = none ∧ 0 ≤ s.options.lateTol ∧ s.at T ≤ s.fireBy s x
      ∧ (after (.enableChannel T 4 9 0) s).planner.queue = [{ s.armedBy s x with projected := x.projected }, { y with flight := 13462 }] := by
  unfold State.hears State.takesUp State.strikesOrdered
  decide +kernel

/-- On a channel that is not DISABLED, ENABLE_CHANNEL sets its misses to 0, and a re-check that runs on its input begins anew; an input that is not stuck keeps its deadline (R98, R106). -/
theorem test_enable_of_an_enabled_channel :
    let s := ((part .ready).setChannel 2 { Channel.atReset with misses := 2 }).setInput 11
      { SensorInput.atReset with asserted := true, stuck := true, latch := some ⟨9000000, true⟩, stuckDeadline := some 10000001 }
    let held := s.setInput 11 { s.input 11 with stuck := false }
    s.steady = true ∧ ((after (.enableChannel T 4 9 2) s).channel 2).misses = 0
      ∧ ((after (.enableChannel T 4 9 2) s).input 11).stuckDeadline = some 10200000
      ∧ ((after (.enableChannel T 4 9 2) held).input 11).stuckDeadline = some 10000001 := by decide +kernel

theorem test_check :
    ((after (.check T 4 9 0 7) (part .ready)).item 32).map AttentionItem.firstDetail = some 4
      ∧ ((after (.check T 4 9 0 1) (part .ready)).item 26).isSome = true
      ∧ (after (.check T 4 9 0 8) (part .ready)).highestPending = none ∧ replyOf (after (.check T 4 9 0 0) (part .ready)) = some (.done, 0) := by
  decide +kernel

theorem test_read_roster :
    replyOf (after (.readRoster T 4 9 5) (peered .ready)) = some (.done, 0)
      ∧ replyOf (after (.readRoster T 4 9 4) (peered .ready)) = some (.done, 0x0101010503000801)
      ∧ replyOf (after (.readRoster T 4 9 0x104) (peered .ready)) = some (.done, 1536000)
      ∧ replyOf (after (.readRoster T 4 9 0x204) (peered .ready)) = some (.done, 0x0000000007A12005)
      ∧ replyOf (after (.readRoster T 4 9 0x220) (peered .ready)) = some (.range, 0)
      ∧ replyOf (after (.readRoster T 4 9 0x300) (peered .ready)) = some (.range, 0) := by decide +kernel

theorem test_read_counters :
    let s := { (part .playing).raise srcMiss 5 with port := { Port.atReset with crcErrors := 1, arbitrationLosses := 2, txOverflow := 3 } }
    let s := { s with options := { s.options with reportThreshold := 8 } }
    s.steady = true ∧ replyOf (after (.readCounters T 4 9 0xFF) s) = some (.done, 0x0001000000000002)
      ∧ replyOf (after (.readCounters T 4 9 0x100) s) = some (.done, 0x0000000305000300)
      ∧ replyOf (after (.readCounters T 4 9 0x214) s) = some (.done, 0x0102010005271019)
      ∧ replyOf (after (.readCounters T 4 9 0x221) s) = some (.done, 0x0007000000000003)
      ∧ replyOf (after (.readCounters T 4 9 0x222) s) = some (.range, 0)
      ∧ replyOf (after (.readCounters T 4 9 0x200) s) = some (.range, 0)
      ∧ replyOf (after (.readCounters T 4 9 0x300) s) = some (.range, 0) := by decide +kernel

/-- READ_CHANNEL of a striker; the input of an UNUSED channel is free, so that page is left to the statement. -/
theorem test_read_channel :
    let s := (part .playing).setChannel 2
      { Channel.atReset with disabled := some .misses, misses := 3, trim := -2, fired := 1, dropped := 2, weak := 3 }
    replyOf (after (.readChannel T 4 9 2) s) = some (.done, 0x01040100FFFE030B)
      ∧ replyOf (after (.readChannel T 4 9 12) s) = some (.done, 0x0205000000000005)
      ∧ replyOf (after (.readChannel T 4 9 0x102) s) = some (.done, 0x0001000000000002)
      ∧ replyOf (after (.readChannel T 4 9 0x202) s) = some (.done, 0x0003000000000000)
      ∧ (s.settings 3).kind = .unused ∧ s.channelState 0 = .idle ∧ s.channelState 3 = .idle ∧ s.channelState 12 = .lowered
      ∧ ({ s with planner := { queue := [armedStrike], claims := [] } } : State).channelState 0 = .armed
      ∧ (s.setChannel 0 { Channel.atReset with recoveryEnd := some 10000001 }).channelState 0 = .recovering
      ∧ (s.setChannel 0 { Channel.atReset with recoveryEnd := some 10000000 }).channelState 0 = .idle
      ∧ (s.setChannel 0 { Channel.atReset with pulse := some ⟨T, 1, 1, T, false, false, false, .normal, T + 1⟩ }).channelState 0 = .driving
      ∧ replyOf (after (.readChannel T 4 9 0x18) s) = some (.range, 0) ∧ replyOf (after (.readChannel T 4 9 0x300) s) = some (.range, 0) := by
  decide +kernel

/-! ## The cue port -/

def txEntry (f : TxFrame) (cls : Nat) : TxEntry := { frame := f, cls := cls, attempts := 0, queuedAt := 0 }

/-- A port with `n` queries' answers unsent. -/
def crowded (n : Nat) : Port := { Port.atReset with unsent := List.replicate n (txEntry (.report none (some 4)) 5) }

/-- A full queue gives up its last frame to one of a lower class and refuses one of its own; an unsent MARK is replaced. -/
theorem test_offers :
    (((crowded 8).offer (txEntry .announce 4)).victim).isSome = true
      ∧ ((crowded 8).offer (txEntry .announce 4)).port.unsent.head?.map TxEntry.frame = some .announce
      ∧ ((crowded 8).offer (txEntry (.report none none) 5)).refused = true
      ∧ ((crowded 8).offer (txEntry (.report none none) 5)).port.txOverflow = 1
      ∧ ((crowded 7).offer (txEntry .mark 2)).port.unsent.length = 8
      ∧ ((({ crowded 7 with unsent := txEntry .mark 2 :: (crowded 7).unsent } : Port).offer (txEntry .mark 2)).port.unsent.length = 8)
      ∧ (crowded 8).length = 8 := by decide +kernel

theorem test_crowded_port_is_ordered : ({ crowded 7 with unsent := txEntry .mark 2 :: (crowded 7).unsent } : Port).ordered := by
  refine ⟨by decide, by decide, by decide, ?_, ?_⟩
  · intro e h
    fin_cases h <;> intro hm <;> first | rfl | cases hm
  · intro a h
    cases h

/-- The highest qualifying item is reported; a pending item below the threshold is not, though it is the highest pending one; level 7 always qualifies. -/
theorem test_report_is_offered :
    (((part .playing).raise srcMiss 0).raise srcChannelStuck 0).offerReport.port.unsent.map TxEntry.frame
        = [.report (some srcChannelStuck) none]
      ∧ ((part .playing).raise srcMiss 0).offerReport.port.unsent = []
      ∧ ((part .listening).raise srcClash 0).offerReport.port.unsent = []
      ∧ (((part .playing).raise srcMiss 0).highestPending, ((part .playing).raise srcMiss 0).firstQualifying) = (some srcMiss, none)
      ∧ (((part .playing).raise srcMiss 0).raise srcChannelStuck 0).highestPending = some srcChannelStuck
      ∧ (part .playing).highestPending = none
      ∧ qualifies { settings with reportThreshold := 8 } srcClash = true := by decide +kernel

/-- The hold-off flag: set by a displaced and by a refused spontaneous REPORT, kept by a frame that finds room, cleared by a withdrawal (R163). -/
theorem test_hold_off :
    let report : TxFrame := .report (some srcMiss) none
    let last (n : Nat) : State := { part .playing with
      port := { crowded n with unsent := (crowded n).unsent ++ [{ txEntry report 7 with queuedAt := 9999999 }] }
      options := { settings with reportThreshold := 8 } }
    let kept : State := { part .playing with port := crowded 8, attention := { (part .playing).attention with holdOff := true } }
    ((last 7).offer (.stop 1)).attention.holdOff = true
      ∧ (State.offer { part .playing with port := { crowded 8 with unsent := (crowded 8).unsent.map fun e => { e with cls := 0 } } }
          report).attention.holdOff = true
      ∧ (State.offer { kept with port := crowded 3 } .announce).attention.holdOff = true
      ∧ (kept.offer (.stop 1)).attention.holdOff = false
      ∧ (State.withdraw { kept with port := { Port.atReset with unsent := [txEntry .announce 4] } } TxFrame.isAnnounce).attention.holdOff
        = false := by decide +kernel

theorem test_receive_errors :
    let early : Nat := 9999000
    let crc := after (.frameCrcError ⟨T, early, 9999990⟩) (part .ready)
    let kind := after (.frameUnknownKind ⟨T, 9999998⟩) (part .ready)
    crc.port.crcErrors = 1 ∧ crc.port.quietSince = some 10000000 ∧ crc.port.acceptFrom = 10000014
      ∧ (after (.frameFramingError ⟨T, early, T⟩) (part .ready)).port.framingErrors = 1
      ∧ kind.port.unknownKind = 1 ∧ alike (after (.frameUnknownKind ⟨T, T⟩) (part .offline)) (part .offline)
      ∧ (after (.frameLeadingEdge ⟨T, early⟩) { part .ready with port := { Port.atReset with yieldOwed := true } }).port.yieldOwed
        = false
      ∧ (after (.frameLeadingEdge ⟨T, early⟩) (part .ready)).port.rx = .receiving := by decide +kernel

/-- While the station listens on after an attempt it abandoned, nothing is counted; an edge after 12 recessive bit times begins a reception, and one before that is waited out. -/
theorem test_listening_after_an_attempt :
    let s : State := { part .ready with port := { Port.atReset with rx := .listening, listenFrom := 9999900 } }
    let fault : FaultMoment := ⟨T, 9999900, 9999982⟩
    s.steady = true ∧ (after (.frameFramingError fault) s).port.framingErrors = 0
      ∧ (after (.frameFramingError fault) s).port.rx = .waiting ∧ (after (.frameCrcError fault) s).port.crcErrors = 0
      ∧ (after (.frameLeadingEdge ⟨T, 9999977⟩) s).port.rx = .waiting
      ∧ (after (.frameLeadingEdge ⟨T, 9999976⟩) s).port.rx = .receiving
      ∧ (after (.frameLeadingEdge ⟨T, 0⟩) { s with port := { s.port with listenFrom := 9999977 } }).port.rx = .waiting := by
  decide +kernel

/-- After a valid frame a start bit is accepted 12 bit times after the line fell recessive, the frame's last stop bit counted, and the last bits of its CRC where they are recessive (R155); a frame whose edge had no command is taken up from 11 bit times after the frame end on. -/
theorem test_edge_after_a_valid_frame :
    let s := after (.stopFrame T 4 1) (part .ready)
    s.port.acceptFrom = 10000022 ∧ s.port.quietSince = some 10000000
      ∧ (after (.frameLeadingEdge ⟨T + 22, T - 2⟩) s).port.rx = .receiving
      ∧ (after (.frameLeadingEdge ⟨T + 21, T - 2⟩) s).port.rx = .waiting
      ∧ (after (.frameLeadingEdge ⟨T + 6, T - 18⟩) s).port.rx = .receiving
      ∧ ((after (.stopFrame (T + 22 + 100) 4 1) s).peer 4).map RosterEntry.frames = some 2
      ∧ ((after (.stopFrame (T + 21 + 100) 4 1) s).peer 4).map RosterEntry.frames = some 1 := by
  decide +kernel

/-- After a start bit read back recessive the next gap is counted from where the line fell quiet: the retry begins at once, and a start bit of another station is accepted, its fault counted; a frame whose start bit came too soon after what stood on the line is not taken up (R147, R150, R155). -/
theorem test_retry_and_edge_after_a_silent_attempt :
    let quiet : State := { part .ready with port := { Port.atReset with listenFrom := 9000000, acceptFrom := 9000024, quietSince := some 9999900, unsent := [txEntry .announce 4] } }
    let failed := after (.txError (T + 2)) (after (.txAttemptStart T 9999900) quiet)
    let heard := after (.frameLeadingEdge ⟨T + 6, 9999900⟩) failed
    let missed := after (.frameLeadingEdge ⟨T + 6, 9999990⟩) failed
    failed.port.rx = .listening ∧ failed.port.failedAttempts = 1
      ∧ (after (.txAttemptStart (T + 2) 9999900) failed).port.attempt.isSome = true
      ∧ heard.port.rx = .receiving ∧ (after (.frameCrcError ⟨T + 400, T + 6, T + 390⟩) heard).port.crcErrors = 1
      ∧ missed.port.rx = .waiting ∧ (after (.frameCrcError ⟨T + 400, T + 6, T + 390⟩) missed).port.crcErrors = 0 := by
  decide +kernel

/-- A frame whose start bit fell before the receive stage accepted one is not received, however late its fault shows (R147, R155). -/
theorem test_frame_under_way_at_validation :
    let s : State := { part .ready with port := { Port.atReset with listenFrom := 9999700, acceptFrom := 9999724 } }
    s.steady = true ∧ (after (.frameCrcError ⟨T, 9999680, 9999996⟩) s).port.crcErrors = 0
      ∧ (after (.frameFramingError ⟨T, 9999680, 9999996⟩) s).port.framingErrors = 0
      ∧ (after (.frameCrcError ⟨T, 9999680, 9999996⟩) s).port.acceptFrom = 10000020
      ∧ (after (.frameCrcError ⟨T, 9999724, 9999996⟩) s).port.crcErrors = 1 := by decide +kernel

/-- After a frame that fell idle, found 9 recessive bits later, a start bit is accepted 12 bits after the line fell recessive (R155). -/
theorem test_edge_after_a_frame_that_fell_idle :
    let s := after (.frameFramingError ⟨T, 9999900, 9999982⟩) (part .ready)
    s.port.framingErrors = 1 ∧ s.port.acceptFrom = 10000006
      ∧ (after (.frameLeadingEdge ⟨T + 5, 9999982⟩) s).port.rx = .waiting
      ∧ (after (.frameLeadingEdge ⟨T + 6, 9999982⟩) s).port.rx = .receiving := by decide +kernel

/-- A station with an ANNOUNCE to send; the line quiet since 9,999,976, 24 µs or 12 bit times ago. -/
def sender : State :=
  { part .ready with port := { Port.atReset with unsent := [txEntry .announce 4], quietSince := some 9999976 } }

theorem test_attempt_begins_after_the_gap :
    sender.steady = true ∧ (after (.txAttemptStart T 0) sender).port.attempt.isSome = true
      ∧ ((after (.txAttemptStart T 0) sender).port.attempt.map Attempt.payload) = some (.announce 3 2 0xFF 0)
      ∧ (after (.txAttemptStart T 9999977) sender).port.attempt = none
      ∧ (after (.txAttemptStart T 0) { sender with port := { sender.port with yieldOwed := true } }).port.attempt = none
      ∧ (after (.txAttemptStart (T + 16) 0) { sender with port := { sender.port with yieldOwed := true } }).port.attempt.isSome = true
      ∧ (after (.txAttemptStart T 0) (part .ready)).port.attempt = none := by decide +kernel

/-- What attempts carry: the position 320 µs on in PLAYING, the hold position in HOLDING, an item as it stands. -/
theorem test_attempt_payloads :
    (part .playing).fill .mark = .mark 768004 499211 26 5 3 0
      ∧ (part .holding).fill .mark = .mark 771840 499211 26 6 3 7
      ∧ ((part .playing).raise srcMiss 258).fill (.report (some srcMiss) none) = .report 20 2 1 258 0
      ∧ ((part .playing).raise srcMiss 258).fill (.report (some srcMiss) (some 4)) = .report 20 2 1 258 0x84
      ∧ (part .playing).fill (.report none (some 4)) = .report 0 0 0 0 0x84 := by decide +kernel

/-- A station that sends a frame since 9,999,983 with `n` failures before, `k` of them this frame's. -/
def sending (f : TxFrame) (cls n k : Nat) : State :=
  { part .ready with port := { Port.atReset with
      failedAttempts := n
      attempt := some { entry := { txEntry f cls with attempts := k }, payload := (part .ready).fill f, started := 9999983 } } }

theorem test_arbitration_loss :
    (sending .announce 4 0 0).steady = true
      ∧ (after (.arbitrationLoss T) (sending .announce 4 0 0)).port.unsent = [txEntry .announce 4]
      ∧ (after (.arbitrationLoss T) (sending .announce 4 0 0)).port.arbitrationLosses = 1
      ∧ (after (.arbitrationLoss (T + 1)) (sending .announce 4 0 0)).port.attempt = none
      ∧ (after (.arbitrationLoss (T + 2)) (sending .announce 4 0 0)).port.attempt.isSome = true
      ∧ (after (.arbitrationLoss T) (sending (.stop 1) 0 0 0)).port.attempt = none
      ∧ ((sending .announce 4 0 0).lineLevel = .recessive ∧ ((sending .announce 4 0 0).advance 10000003).lineLevel = .dominant)
      ∧ alike (after (.arbitrationLoss T) (part .ready)) (part .ready) ∧ alike (after (.txError T) (part .ready)) (part .ready)
      ∧ alike (after (.frameSent T) (part .ready)) (part .ready) := by decide +kernel

/-- The third failure keeps the frame, the fourth drops it, the sixteenth in a row mutes the port. -/
theorem test_transmit_errors :
    (after (.txError T) (sending .announce 4 2 2)).port.unsent.map TxEntry.attempts = [3]
      ∧ (after (.txError T) (sending .announce 4 3 3)).port.unsent = []
      ∧ (after (.txError T) (sending .announce 4 3 3)).port.txFailures = 1
      ∧ (after (.txError T) (sending .announce 4 15 0)).port.mutedUntil = some 11000000
      ∧ (after (.txError T) (sending .announce 4 15 0)).port.failedAttempts = 0
      ∧ ((after (.txError T) (sending .announce 4 15 0)).item srcLineFault).map AttentionItem.firstDetail = some 1 := by
  decide +kernel

/-- The sixteenth failure in a row with a full queue: the REPORT of LINE_FAULT displaces the failed frame that stands last, and a failed frame of a lower class stays. -/
theorem test_failure_that_mutes_a_full_port :
    let full (f : TxFrame) (cls n : Nat) : State := { sending f cls 15 0 with
      port := { (sending f cls 15 0).port with unsent := (crowded n).unsent } }
    let reply := after (.txError T) (full (.svcReply 4 .done 0 0 false) 7 7)
    let announce := after (.txError T) (full .announce 4 7)
    (full (.svcReply 4 .done 0 0 false) 7 7).steady = true ∧ (full .announce 4 7).steady = true
      ∧ (full .announce 4 7).port.length = 8 ∧ (full .announce 4 7).firstQualifying = none
      ∧ reply.port.unsent.map TxEntry.cls = [3, 5, 5, 5, 5, 5, 5, 5]
      ∧ reply.port.unsent.head?.map TxEntry.frame = some (.report (some srcLineFault) none)
      ∧ announce.port.unsent.map TxEntry.cls = [3, 4, 5, 5, 5, 5, 5, 5]
      ∧ (after (.txError T) (full (.svcReply 4 .done 0 0 false) 7 6)).port.unsent.map TxEntry.cls = [3, 5, 5, 5, 5, 5, 5, 7] := by
  decide +kernel

/-- The reply to LEAVE_SERVICE fails for the fourth time: the part resets. -/
theorem test_leave_reply_dropped :
    let l : State := { sending (.svcReply 4 .done 0 0 true) 7 0 3 with station := station .service, handler := .leaving false }
    l.steady = true ∧ (after (.txError T) l).station.state = .offline ∧ (after (.txError T) l).station.cause = .service := by
  decide +kernel

/-- A dropped REPORT sets the hold-off flag; a frame that fails goes back into a queue with seven others. -/
theorem test_failed_frames_and_the_queue :
    let report := sending (.report (some srcClash) none) 3 0 3
    let full := { sending .announce 4 0 0 with port := { (sending .announce 4 0 0).port with unsent := (crowded 7).unsent } }
    report.steady = true ∧ (after (.txError T) report).attention.holdOff = true ∧ (after (.txError T) report).port.unsent = []
      ∧ full.steady = true ∧ (after (.txError T) full).port.unsent.length = 8
      ∧ (after (.txError T) full).port.unsent.head? = some { txEntry .announce 4 with attempts := 1 } := by decide +kernel

theorem test_mute_end :
    (after (.muteEnd T) { part .ready with port := { Port.atReset with mutedUntil := some 10000000 } }).port.mutedUntil = none
      ∧ (after (.muteEnd T) { part .ready with port := { Port.atReset with mutedUntil := some 10000001 } }).port.mutedUntil
        = some 10000001 ∧ alike (after (.muteEnd T) (part .ready)) (part .ready) := by decide +kernel

/-- An ANNOUNCE of 8 characters, 160 µs, is sent at its frame end and not before; a sent START, STOP and RELEASE act. -/
theorem test_frame_sent :
    (after (.frameSent (T + 143)) (sending .announce 4 1 0)).port.attempt = none
      ∧ (after (.frameSent (T + 143)) (sending .announce 4 1 0)).port.yieldOwed = true
      ∧ (after (.frameSent (T + 143)) (sending .announce 4 1 0)).station.keepalive = some 10250143
      ∧ (after (.frameSent (T + 142)) (sending .announce 4 1 0)).port.attempt.isSome = true
      ∧ (after (.frameSent (T + 203)) (sending (.start 3 1 4 500000) 1 0 0)).station.state = .countin
      ∧ (after (.frameSent (T + 83)) { sending (.stop 1) 0 0 0 with station := station .playing }).station.state = .ready
      ∧ (after (.frameSent (T + 103)) { sending (.release 3 7) 1 0 0 with
          station := station .holding, clock := (part .holding).clock }).station.state = .playing := by decide +kernel

/-- A sent REPORT clears its item and offers the unsent answers to it again; the reply to LEAVE_SERVICE resets the part. -/
theorem test_report_and_reply_sent :
    let r : State := (sending (.report (some srcMiss) none) 5 0 0).raise srcMiss 0
    let r : State := { r with port := { r.port with unsent := [txEntry (.report (some srcMiss) (some 4)) 5] } }
    let l : State := { sending (.svcReply 4 .done 0 0 true) 7 0 0 with station := station .service, handler := .leaving false }
    r.steady = true ∧ (after (.frameSent (T + 183)) r).item srcMiss = none
      ∧ (after (.frameSent (T + 183)) r).port.unsent.map TxEntry.frame = [.report none (some 4)]
      ∧ l.steady = true ∧ (after (.frameSent (T + 303)) l).station.state = .offline
      ∧ (after (.frameSent (T + 303)) l).station.cause = .service := by decide +kernel

/-- A QUERY at the frame end of the REPORT that clears the highest item gets the same answer in both orders, before the next spontaneous REPORT; what ends at the moment of a frame end is received, and the yield stays owed. -/
theorem test_query_at_a_clearing :
    let r : State := (((sending (.report (some srcMiss) none) 5 0 0).raise srcMiss 0).raise srcStray 0).raise srcWeak 0
    let r : State := { r with options := { settings with reportThreshold := 2 } }
    let query : Instr := .queryFrame (T + 183) 4 9
    let sent : Instr := .frameSent (T + 183)
    let one := after sent (after query r)
    let two := after query (after sent r)
    r.steady = true ∧ r.highestPending = some srcMiss
      ∧ two.port.unsent.map TxEntry.frame = [.report (some srcStray) (some 4), .report (some srcStray) none]
      ∧ one.port = two.port ∧ one.attention = two.attention ∧ alike one two ∧ two.port.yieldOwed = true := by decide +kernel

/-- The state before the QUERY and the clearing meets what the two commands ask of it. -/
theorem test_query_and_clearing_meet :
    let r : State := (((sending (.report (some srcMiss) none) 5 0 0).raise srcMiss 0).raise srcStray 0).raise srcWeak 0
    let r : State := { r with options := { settings with reportThreshold := 2 } }
    r.hears (T + 183) 4 8 ∧ r.awake = true ∧ r.port.ordered ∧ r.port.unsent = [] ∧ r.highestPending = some srcMiss
      ∧ (r.port.attempt.map fun a => (a.entry.frame, charactersOfKind a.payload.kindCode)) = some (.report (some srcMiss) none, some 10)
      ∧ (r.port.attempt.all fun a => decide (a.started + 10 * 10 * r.options.bitTime ≤ r.at (T + 183))) = true := by
  unfold State.hears State.takesUp Port.ordered TxEntry.markClass
  decide +kernel

/-- START and MARK at one moment in READY: the one taken first has its effect, and the other is received too (R6). -/
theorem test_start_and_mark_at_one_moment :
    let start : Instr := .startFrame T 4 3 1 4 500000
    let mark : Instr := .markFrame T 5 768100 500000 50 5 3 0
    let one := after mark (after start (part .ready))
    let two := after start (after mark (part .ready))
    one.station.state = .countin ∧ two.station.state = .rejoining
      ∧ ((one.peer 5).bind RosterEntry.lastMark).isSome = true ∧ (two.peer 4).isSome = true := by decide +kernel

theorem test_raise_counts :
    (((part .ready).raise srcMiss 5).raise srcMiss 6).item srcMiss = some ⟨2, 5, 10000⟩
      ∧ ({ part .ready with attention := { Attention.atReset with
            items := Attention.atReset.items.set 19 (some ⟨255, 5, 10000⟩) } }.raise srcMiss 6).item srcMiss = some ⟨255, 5, 10000⟩ := by
  decide +kernel

/-! ## The ensemble clock -/

/-- The worked case of 2.4: E = 46 gives D = 1 and L = 499,211, and no fresh mark then gives 499,992. -/
theorem test_follow_update :
    let c := { Clock.atReset with d := 0 }.follow settings 46
    phaseCorrection settings 46 = 12 ∧ c.d = 1 ∧ c.l = 499211 ∧ (c.follow settings 0).l = 499992
      ∧ meanOffset [(4, 96), (2, 32), (2, -40)] = 46 ∧ meanOffset [(2, 32), (2, -40)] = -4 := by decide +kernel

theorem test_roundings :
    rhu 5 2 = 3 ∧ rhu (-5) 2 = -2 ∧ rhaz 5 2 = 3 ∧ rhaz (-5) 2 = -3 ∧ trunc 5 2 = 2 ∧ trunc (-5) 2 = -2 := by decide

/-- A boundary at B+L moves the beat and the meter, empties the marks and queues a MARK; a microsecond before, nothing. -/
theorem test_beat_boundary :
    let s := { part .playing with clock := { clock with beatInBar := 4, marks := [⟨4, false, .zero⟩] } }
    s.steady = true ∧ (after (.beatBoundary 10499211) s).clock.pb = 775680 ∧ (after (.beatBoundary 10499211) s).clock.b = 10499211
      ∧ (after (.beatBoundary 10499211) s).clock.beatInBar = 1 ∧ (after (.beatBoundary 10499211) s).clock.bar = 27
      ∧ (after (.beatBoundary 10499211) s).clock.marks = [] ∧ (after (.beatBoundary 10499211) s).clock.l = 500000
      ∧ (after (.beatBoundary 10499211) s).port.hasUnsent TxFrame.isMark = true
      ∧ (after (.beatBoundary 10499210) s).clock.pb = 768000 ∧ alike (after (.beatBoundary 10499211) (part .ready)) ((part .ready).advance 10499211) := by
  decide +kernel

/-- Mark boundaries: the odd beats with EVERY_SECOND_BEAT, beat 1 with BAR_FIRST, every beat before the start position, none in REJOINING; a full queue gives way, or keeps its own of class 2 and below (R26, R153). -/
theorem test_mark_boundaries :
    let s (st : StationState) (m : MarkInterval) (beat : Nat) : State := { part st with
      options := { settings with markInterval := m }
      clock := { clock with beatInBar := beat, start := if st = .countin then some ⟨783360, none⟩ else none } }
    let marks (s : State) : Bool := (after (.beatBoundary 10499211) s).port.hasUnsent TxFrame.isMark
    let releases : List TxEntry := List.replicate 8 (txEntry (.release 3 7) 1)
    (∀ st ∈ [StationState.playing, .countin, .rejoining], (s st .barFirst 1).steady = true)
      ∧ marks (s .playing .everySecondBeat 1) = false ∧ marks (s .playing .everySecondBeat 2) = true
      ∧ marks (s .playing .barFirst 2) = false ∧ marks (s .playing .barFirst 4) = true ∧ marks (s .countin .barFirst 2) = true
      ∧ marks (s .rejoining .everyBeat 1) = false
      ∧ marks { s .playing .barFirst 4 with port := crowded 8 } = true
      ∧ marks { s .playing .barFirst 4 with port := { Port.atReset with unsent := releases } } = false := by decide +kernel

/-- The boundary takes the TEMPO and BAR events at its position, consumes the fresh offset and leaves one that is too old (R24, R25, R30). -/
theorem test_boundary_events_and_marks :
    let fresh (at' : Time) : State := (peered .playing).setPeer 4 (((peered .playing).peer 4).map fun e =>
      { e with lastMark := e.lastMark.map fun m => { m with offset := some 5, consumed := false, received := at' } })
    let s : State := { fresh 10000000 with reader := { Reader.atReset with
      timeline := [⟨770000, .tempo 300000⟩, ⟨775680, .tempo 400000⟩, ⟨775680, .bar 3 40⟩, ⟨775681, .bar 2 50⟩] } }
    let t := after (.beatBoundary 10499211) s
    let used (s : State) : Option Bool := ((after (.beatBoundary 10499211) s).peer 4).bind fun e => e.lastMark.map LastMark.consumed
    s.steady = true ∧ t.clock.tScore = 400000 ∧ t.clock.bpb = 3 ∧ t.clock.bar = 40 ∧ t.clock.beatInBar = 1
      ∧ t.reader.timeline = [⟨775681, .bar 2 50⟩] ∧ used s = some true ∧ used (fresh 1000000) = some false := by decide +kernel

/-- The boundary at the start position: PLAYING at the bar found, or REJOINING where none is found; elsewhere COUNTIN goes on. -/
theorem test_count_in_ends :
    let s (p : StartPosition) : State := { part .countin with clock := { clock with start := some p } }
    let found : FoundBar := { bpb := 3, bar := 5, tempo := some 100000 }
    let t := after (.beatBoundary 10499211) (s { pos := 775680, found := some found })
    (s { pos := 775680, found := none }).steady = true
      ∧ (t.station.state, t.clock.bpb, t.clock.bar, t.clock.beatInBar, t.clock.tScore) = (.playing, 3, 5, 1, 200000)
      ∧ (after (.beatBoundary 10499211) (s { pos := 775680, found := none })).station.state = .rejoining
      ∧ (after (.beatBoundary 10499211) (s { pos := 775680, found := none })).clock.entryThreshold = some 783360
      ∧ (after (.beatBoundary 10499211) (s { pos := 783360, found := none })).station.state = .countin
      ∧ (let c := (after (.beatBoundary 10499211) (s { pos := 783360, found := none })).clock
        (c.bpb, c.bar, c.beatInBar) = (4, 26, 2))
      ∧ (let c := (after (.beatBoundary 10499211) (s { pos := 775680, found := none })).clock
        (c.bpb, c.bar, c.beatInBar) = (4, 26, 2)) := by decide +kernel

/-- The boundary at the entry bar: PLAYING with REJOINED and a MARK; a threshold reached with no bar found moves on. -/
theorem test_rejoin_ends :
    let s (e : Option EntryBar) : State := { part .rejoining with clock := { clock with entryBar := e, entryThreshold := some 775680 } }
    let t := after (.beatBoundary 10499211) { s (some { pos := 775680, bpb := 3, bar := 27 }) with station := station .rejoining }
    (s (some { pos := 775680, bpb := 3, bar := 27 })).steady = true ∧ (s none).steady = true
      ∧ (t.station.state, t.clock.bpb, t.clock.bar, t.clock.beatInBar) = (.playing, 3, 27, 1)
      ∧ (t.item srcRejoined).map AttentionItem.firstDetail = some 27 ∧ t.port.hasUnsent TxFrame.isMark = true
      ∧ (after (.beatBoundary 10499211) (s (some { pos := 783360, bpb := 3, bar := 27 }))).station.state = .rejoining
      ∧ (after (.beatBoundary 10499211) (s none)).clock.entryThreshold = some 783360
      ∧ (let c := (after (.beatBoundary 10499211) (s none)).clock
        (c.bpb, c.bar, c.beatInBar) = (4, 26, 2))
      ∧ (let s := s (some { pos := 783360, bpb := 3, bar := 27 })
        let c := (after (.beatBoundary 10499211) { s with clock := { s.clock with beatInBar := 4 } }).clock
        (c.bpb, c.bar, c.beatInBar) = (4, 26, 1)) := by decide +kernel

/-- A part at the boundary of 10,499,211, which takes it to 775,680 and L to 500,000: the first of its strikes is due to arm there, the second is not, and of its DAMP events the first applies there. -/
def crossing (st : StationState) (c : Clock) : State :=
  { part st with
    clock := c
    reader := { Reader.atReset with timeline :=
      [⟨776000, .damp true (BitVec.twoPow 24 12)⟩, ⟨777000, .damp false (BitVec.twoPow 24 12)⟩] }
    planner := { queue := [strike 775907, strike 783360], claims := [] } }

/-- The boundary projects anew and arms what is due, in PLAYING and on entry to it from COUNTIN and REJOINING; in REJOINING it projects alone. The DAMP event applies. -/
theorem test_boundary_projects_anew :
    let s : StationState → State
      | .countin => crossing .countin { clock with start := some { pos := 775680, found := some { bpb := 3, bar := 5, tempo := none } } }
      | .rejoining => crossing .rejoining { clock with entryBar := some { pos := 775680, bpb := 3, bar := 27 } }
      | _ => crossing .playing clock
    let idle := crossing .rejoining { clock with entryThreshold := some 790000 }
    let t (s : State) := after (.beatBoundary 10499211) s
    let shown (s : State) := s.planner.queue.map fun e => (e.phase, e.projected, e.width, e.flight)
    (∀ st ∈ [StationState.playing, .countin, .rejoining], (s st).steady = true ∧ (s st).awake = true ∧ (s st).clockRuns = true
        ∧ (t (s st)).station.state = .playing
        ∧ shown (t (s st)) = [(.armed 0 10500528 10500528, some 10500528, 2626, 13462), (.planned false, some 10985749, 2626, 13462)]
        ∧ ((t (s st)).damper 12).targetRaised = true ∧ ((t (s st)).damper 12).state = .raising
        ∧ (t (s st)).reader.timeline = [⟨777000, .damp false (BitVec.twoPow 24 12)⟩])
      ∧ idle.steady = true ∧ (t idle).station.state = .rejoining
      ∧ shown (t idle) = [(.planned false, some 10500528, 2626, 13462), (.planned false, some 10985749, 2626, 13462)] := by
  decide +kernel

/-- What these boundaries come to is what the statement says, with its premises met. -/
theorem test_crossing_is_reprojected :
    (crossing .playing clock).reprojected (after (.beatBoundary 10499211) (crossing .playing clock))
      ∧ (crossing .playing clock).dampsApplied (after (.beatBoundary 10499211) (crossing .playing clock))
      ∧ (crossing .playing clock).strikesOrdered ∧ (crossing .playing clock).timelineOrdered := by
  unfold State.strikesOrdered State.timelineOrdered State.reprojected State.preferredIsFree State.dampsApplied
  refine ⟨⟨?_, ?_, ?_, ?_⟩, ?_, ?_⟩ <;> decide +kernel

/-- The rotor at a boundary: the last event counts, a finishing station's rotor stays at rest, a stall is raised. -/
theorem test_boundary_turns_the_rotor :
    let s : State := { part .playing with
      reader := { Reader.atReset with timeline := [⟨768000, .rotor 5⟩, ⟨775680, .rotor 40⟩, ⟨775681, .rotor 1⟩] } }
    let f : State := { s with
      station := { s.station with finishing := true }
      confirm := [⟨0, 10, 10905000, 10902000, 10911000, false, false, false, false, false, .normal⟩] }
    let z : State := { part .playing with rotor := { Rotor.atReset with target := 6, duty := 93, zeroBeats := 1 } }
    s.steady = true ∧ f.steady = true ∧ z.steady = true
      ∧ (after (.beatBoundary 10499211) s).rotor = { Rotor.atReset with target := 32, duty := 128 }
      ∧ (after (.beatBoundary 10499211) s).reader.timeline = [⟨775681, .rotor 1⟩]
      ∧ (after (.beatBoundary 10499211) f).rotor = Rotor.atReset
      ∧ ((after (.beatBoundary 10499211) z).item srcRotorStall).map AttentionItem.firstDetail = some 26 := by decide +kernel

/-- The second update of outliers of one sign from two peers sends the station to REJOINING. -/
theorem test_self_resync :
    let s := { part .playing with clock := { clock with selfOutliers := 1, marks := [⟨4, true, .positive⟩, ⟨5, true, .positive⟩] } }
    s.steady = true ∧ (after (.beatBoundary 10499211) s).station.state = .rejoining
      ∧ ((after (.beatBoundary 10499211) s).item srcSelfResync).map AttentionItem.firstDetail = some 26
      ∧ (after (.beatBoundary 10499211) { s with clock := { s.clock with selfOutliers := 0 } }).clock.selfOutliers = 1
      ∧ (after (.beatBoundary 10499211) { s with clock := { s.clock with marks := [⟨4, true, .positive⟩, ⟨5, true, .negative⟩] } }).clock.selfOutliers = 0
      ∧ (after (.beatBoundary 10499211) { s with clock := { s.clock with marks := [⟨4, true, .positive⟩, ⟨4, true, .positive⟩] } }).clock.selfOutliers = 0
      ∧ (after (.beatBoundary 10499211) { part .countin with clock := s.clock }).clock.selfOutliers = 0
      ∧ (let c := { s.clock with start := some ⟨775680, some ⟨4, 1, none⟩⟩ }
        (after (.beatBoundary 10499211) { part .countin with clock := c }).clock.selfOutliers = 1)
      ∧ (let c := { s.clock with entryBar := some ⟨775680, 4, 27⟩ }
        ({ part .rejoining with clock := c } : State).steady = true
          ∧ (after (.beatBoundary 10499211) { part .rejoining with clock := c }).clock.selfOutliers = 1) := by decide +kernel

/-- It stands without a position, its strike queue, timeline list and roll table flushed, until the reference is taken. -/
theorem test_self_resync_unsets_the_position :
    let s : State := { part .playing with
      clock := { clock with selfOutliers := 1, marks := [⟨4, true, .positive⟩, ⟨5, true, .positive⟩] }
      reader := { reading.reader with timeline := [⟨783360, .tempo 480000⟩], rolls := Vector.replicate 4 (some ⟨60, 70, 782000, 790000, 20, 1⟩) }
      planner := { queue := [strike 771840], claims := [] } }
    s.steady = true ∧ s.clock.isSet = true ∧ (s.advance 10499211).rejoinsUnset (after (.beatBoundary 10499211) s) (some 3) := by
  unfold State.rejoinsUnset
  decide +kernel

/-- A station that finishes does not rejoin: its piece ends. -/
theorem test_self_resync_of_a_finishing_station :
    let s := { part .playing with
      station := { station .playing with finishing := true }, planner := { queue := [strike 771840], claims := [] }
      clock := { clock with selfOutliers := 1, marks := [⟨4, true, .positive⟩, ⟨5, true, .positive⟩] } }
    let t := after (.beatBoundary 10499211) s
    s.steady = true ∧ t.station.state = .ready ∧ t.planner.queue = [] ∧ t.clock.marks = []
      ∧ (t.item srcSelfResync).map AttentionItem.firstDetail = some 26 := by decide +kernel

/-! ### Holds and END -/

/-- Hold 7 at the position, behind a later HOLD in the list. -/
def holdAhead : State :=
  { part .playing with reader := { Reader.atReset with
      timeline := [⟨768001, .hold 8 false 0 0⟩, ⟨768000, .hold 7 true 0 0⟩] } }

theorem test_hold_reached :
    holdAhead.steady = true ∧ (after (.holdReached T) holdAhead).station.state = .holding
      ∧ ((after (.holdReached T) holdAhead).clock.hold.map fun h => (h.number, h.limit, h.ownerDeadline)) = some (7, 18000000, none)
      ∧ (after (.holdReached T) holdAhead).port.unsent.map TxEntry.frame = [.release 3 7, .mark]
      ∧ (after (.holdReached T) { holdAhead with clock := { clock with remembered := some 7 } }).station.state = .playing
      ∧ (after (.holdReached T) { holdAhead with clock := { clock with remembered := some 7 } }).clock.lastPassed = some 7 := by
  decide +kernel

theorem test_hold_deadlines :
    (after (.ownerDeadline T) (part .holding)).port.unsent.map TxEntry.frame = [.release 3 7]
      ∧ ((after (.ownerDeadline T) (part .holding)).clock.hold.bind HoldState.ownerDeadline) = none
      ∧ (after (.holdMarkDeadline T) (part .holding)).port.unsent.map TxEntry.frame = [.mark]
      ∧ ((after (.holdMarkDeadline T) (part .holding)).clock.hold.bind HoldState.markDeadline) = some 10250000
      ∧ alike (after (.holdMarkDeadline T) { part .holding with clock := { clock with hold := some { hold7 with markDeadline := none } } })
          { part .holding with clock := { clock with hold := some { hold7 with markDeadline := none } } }
      ∧ alike (after (.ownerDeadline T) (part .playing)) (part .playing) ∧ alike (after (.holdLimit T) (part .playing)) (part .playing) := by
  decide +kernel

theorem test_hold_limit :
    (after (.holdLimit T) (part .holding)).station.state = .playing
      ∧ (after (.holdLimit T) (part .holding)).clock.b = 9750394
      ∧ ((after (.holdLimit T) (part .holding)).item srcHoldTimeout).map AttentionItem.firstDetail = some 7
      ∧ (after (.holdLimit T) { part .holding with clock := { clock with hold := some { hold7 with limit := 10000001 } } }).station.state
        = .holding
      ∧ (let s := { part .holding with
            station := { station .holding with returnState := some .rejoining }, port := { Port.atReset with unsent := [txEntry .mark 2] } }
         (after (.holdLimit T) s).station.state = .rejoining ∧ (after (.holdLimit T) s).port.unsent = []) := by decide +kernel

/-- What leaving a hold takes along: the offsets, this station's own RELEASE, and a piece that was finishing. -/
theorem test_hold_left :
    let s : State := { peered .holding with port := { Port.atReset with unsent := [txEntry (.release 3 7) 1] } }
    let s := s.setPeer 4 ((s.peer 4).map fun e => { e with lastMark := e.lastMark.map fun m =>
      { m with offset := some 5, consumed := false } })
    let f : State := { part .holding with station := { station .holding with finishing := true } }
    s.steady = true ∧ ((after (.holdLimit T) s).peer 4).bind (fun e => e.lastMark.map LastMark.consumed) = some true
      ∧ (after (.holdLimit T) s).port.unsent = [] ∧ ((after (.releaseFrame T 4 3 7) s).port.unsent = [])
      ∧ f.steady = true ∧ (after (.holdLimit T) f).station.state = .ready ∧ (after (.releaseFrame T 4 3 7) f).station.state = .ready := by
  decide +kernel

/-- At 10,260,000 a release gives the time of 771,840 back as the position's: the strike beyond the hold is projected again and arms, and a DAMP event due by the clock it leaves applies. -/
def held : State :=
  { part .holding with
    reader := { Reader.atReset with timeline := [⟨772000, .damp true (BitVec.twoPow 24 12)⟩] }
    planner := { queue := [{ strike 772060 with projected := none }, { strike 783360 with projected := none }], claims := [] } }

theorem test_release_projects_anew :
    let shown (s : State) := s.planner.queue.map fun e => (e.phase, e.projected)
    (∀ c ∈ [Instr.holdLimit 10260000, .releaseFrame 10260000 4 3 7],
      shown (after c held) = [(.armed 0 10260838 10260838, some 10260838), (.planned false, some 10995354)]
        ∧ ((after c held).damper 12).state = .raising ∧ (after c held).reader.timeline = [])
      ∧ held.steady = true ∧ held.awake = true ∧ held.hears 10260000 4 0x5 ∧ held.clock.hold = some hold7
      ∧ held.strikesOrdered ∧ held.timelineOrdered := by
  unfold State.hears State.takesUp State.strikesOrdered State.timelineOrdered
  decide +kernel

/-- What the release comes to is what the statement says. -/
theorem test_release_is_reprojected :
    held.reprojected (after (.holdLimit 10260000) held) ∧ held.dampsApplied (after (.holdLimit 10260000) held) := by
  unfold State.reprojected State.preferredIsFree State.dampsApplied
  refine ⟨⟨?_, ?_, ?_, ?_⟩, ?_⟩ <;> decide +kernel

/-- END with nothing left enters READY; with a record still open the station finishes. -/
theorem test_end_reached :
    let s := { part .playing with reader := { Reader.atReset with timeline := [⟨768000, .endOfPart⟩] } }
    let r : ConfirmRecord := ⟨0, 10, 10005000, 10002000, 10011000, false, false, false, false, false, .normal⟩
    s.steady = true ∧ (after (.endReached T) s).station.state = .ready ∧ (after (.endReached T) s).reader.state = .idle
      ∧ (after (.endReached T) { s with confirm := [r] }).station.finishing = true
      ∧ (after (.endReached T) { s with confirm := [r] }).station.state = .playing := by decide +kernel

/-- END with strikes queued lets the station finish and keeps them; in REJOINING it ends the piece; ahead of the position nothing happens. -/
theorem test_end_with_strikes_and_in_rejoining :
    let s (st : StationState) (p : Pos) : State := { part st with
      reader := { Reader.atReset with state := .ended, timeline := [⟨p, .endOfPart⟩] }, planner := { queue := [strike 771840], claims := [] } }
    let t := after (.endReached T) (s .playing 768000)
    let r := after (.endReached T) (s .rejoining 768000)
    (s .playing 768000).steady = true ∧ (s .playing 768000).awake = true ∧ t.station = { station .playing with finishing := true }
      ∧ t.planner.queue = [strike 771840] ∧ t.reader.timeline = [] ∧ t.clock = clock
      ∧ (s .rejoining 768000).steady = true ∧ (s .rejoining 768000).clock.isSet = true
      ∧ r.station.state = .ready ∧ r.planner.queue = [] ∧ r.reader.state = .idle
      ∧ alike (after (.endReached T) (s .playing 768001)) (s .playing 768001)
      ∧ alike (after (.endReached T) { s .rejoining 768000 with clock := { clock with isSet := false } })
        { s .rejoining 768000 with clock := { clock with isSet := false } }
      ∧ alike (after (.endReached T) (s .holding 768000)) (s .holding 768000) := by decide +kernel

/-! ## The reader -/

/-- A score of one record. -/
def oneRecord (s : State) (bytes : List Nat) : State :=
  { s with
    store := bytes.zipIdx.filterMap fun x => if x.1 = 0xFF then none else some (0x1000 + x.2, BitVec.ofNat 8 x.1)
    parts := s.parts.set 3 (.valid 0x1000 1) }

/-- The reader at the record of an index. -/
def readingAt (k : Nat) : State :=
  { reading with reader := { reading.reader with cursor := some { index := k, pos := 775680 } }, planner := { queue := [], claims := [] } }

theorem test_reader_takes_records :
    (∀ k ∈ [0, 1, 2, 3, 4], (readingAt k).steady = true)
      ∧ (after (.readerTakeItem T) (readingAt 0)).reader.timeline = [⟨775680, .tempo 480000⟩]
      ∧ (after (.readerTakeItem T) (readingAt 0)).reader.cursor = some { index := 1, pos := 775680 }
      ∧ (after (.readerTakeItem T) (readingAt 0)).reader.busyUntil = 10000002
      ∧ (after (.readerTakeItem T) (readingAt 1)).planner.queue.map (fun e => (e.pos, e.voice, e.velocity)) = [(775680, 60, 80)]
      ∧ ((after (.readerTakeItem T) (readingAt 2)).reader.rolls[(0 : Fin 4)].map fun r => (r.next, r.ends, r.interval))
        = some (775680, 777280, 20)
      ∧ ((after (.readerTakeItem T) (readingAt 3)).item srcUnknownRecord).map AttentionItem.firstDetail = some 3
      ∧ (after (.readerTakeItem T) (readingAt 4)).reader.state = .ended := by decide +kernel

/-- A queue of 64 strikes and a list of 16 events leave no room; beyond two beats nothing is read. -/
theorem test_reader_waits :
    let full : State := { readingAt 1 with planner := { queue := (List.range 64).map fun k => strike (800000 + k), claims := [] } }
    let busy : State := { readingAt 0 with reader := { (readingAt 0).reader with timeline := (List.range 16).map fun k => ⟨800000 + k, .tempo 500000⟩ } }
    let far : State := { readingAt 0 with reader := { (readingAt 0).reader with cursor := some { index := 0, pos := 783361 } } }
    full.steady = true ∧ busy.steady = true ∧ far.steady = true
      ∧ alike (after (.readerTakeItem T) full) full ∧ alike (after (.readerTakeItem T) busy) busy
      ∧ alike (after (.readerTakeItem T) far) far
      ∧ alike (after (.readerTakeItem T) (part .ready)) (part .ready)
      ∧ (after (.readerTakeItem T) { far with reader := { far.reader with cursor := some { index := 0, pos := 783360 } } }).reader.timeline.length = 1 := by
  decide +kernel

/-- The reader before a piece of one record at `p`, with a list of events and a roll table. -/
def readingOf (st : StationState) (bytes : List Nat) (p : Pos) : State :=
  oneRecord { part st with
    reader := { Reader.atReset with
      state := .reading, cursor := some { index := 0, pos := p }, barMap := [(737280, 25), (768000, 26)]
      meter := some { barStart := 768000, bpb := 4, bar := 26, change := none } } } bytes

/-- Each event of the next test is the reader's next item, and no DAMP event is due before it. -/
theorem test_events_are_items : ∀ r ∈ [[1, 0, 0, 0, 3, 0, 7], [7, 0, 0, 7, 0, 0, 0, 0], [6, 0, 0, 0, 40],
      [5, 0, 0, 1, 0, 0, 16, 0], [5, 0, 0, 1, 0, 0, 0, 4], [8, 0, 0]], ∀ p ∈ [(768000 : Pos), 783360],
    (readingOf .playing r p).reads T (.record { index := 0, pos := p })
      ∧ (readingOf .playing r p).awake = true ∧ ∀ d, ((readingOf .playing r p).advance T).firstDamp d = none := by
  unfold State.reads
  decide +kernel

/-- Events ahead take their place in the list; those the clock has passed come about at once. -/
theorem test_reader_takes_events :
    let go (st : StationState) (r : List Nat) (p : Pos) : State := after (.readerTakeItem T) (readingOf st r p)
    (go .playing [1, 0, 0, 0, 3, 0, 7] 783360).reader.timeline = [⟨783360, .bar 3 7⟩]
      ∧ (go .playing [1, 0, 0, 0, 3, 0, 7] 783360).reader.meter = some ⟨783360, 3, 7, none⟩
      ∧ (go .playing [7, 0, 0, 7, 0, 0, 0, 0] 783360).reader.timeline.length = 1
      ∧ (go .countin [7, 0, 0, 7, 0, 0, 0, 0] 768000).reader.timeline.length = 1
      ∧ (go .playing [7, 0, 0, 7, 0, 0, 0, 0] 768000).station.state = .holding
      ∧ (after (.readerTakeItem T) { readingOf .playing [7, 0, 0, 7, 0, 0, 0, 0] 768000 with
          clock := { clock with remembered := some 7 } }).clock.lastPassed = some 7
      ∧ (go .playing [6, 0, 0, 0, 40] 783360).reader.timeline = [⟨783360, .rotor 40⟩]
      ∧ (go .playing [6, 0, 0, 0, 40] 768000).rotor.pendingTarget = some 32
      ∧ (go .playing [5, 0, 0, 1, 0, 0, 16, 4] 783360).reader.timeline = [⟨783360, .damp true (BitVec.twoPow 24 12)⟩]
      ∧ ((go .playing [5, 0, 0, 1, 0, 0, 16, 4] 768000).damper 12).state = .raising
      ∧ ((go .playing [5, 0, 0, 1, 0, 0, 16, 4] 768600).damper 12).state = .raising
      ∧ (go .playing [5, 0, 0, 1, 0, 0, 0, 4] 768000).reader.timeline = []
      ∧ (go .playing [8, 0, 0] 783360).reader.timeline = [⟨783360, .endOfPart⟩]
      ∧ (go .playing [8, 0, 0] 768000).station.state = .ready ∧ (go .rejoining [8, 0, 0] 768000).station.state = .ready
      ∧ (after (.readerTakeItem T) { readingOf .playing [8, 0, 0] 768000 with
          confirm := [⟨0, 10, 10905000, 10902000, 10911000, false, false, false, false, false, .normal⟩] }).station.finishing = true := by
  decide +kernel

/-- A DAMP record at the very position, read while the scan's note for that position is still due, overrides it (R121, R60). -/
theorem test_placed_damp_follows_the_earlier_one :
    let s (raise : Nat) : State :=
      let s := readingOf .playing [5, 0, 0, raise, 0, 0, 16, 0] 768000
      { s with
        reader := { s.reader with timeline := [⟨768000, .damp (raise = 0) (BitVec.twoPow 24 12)⟩] }
        options := { s.options with channels := s.options.channels.set 12 { s.settings 12 with damperLead := 0 } } }
    (s 0).steady = true ∧ ((s 0).advance T).firstDamp 12 = some (0, 10000000, true)
      ∧ (s 0).clock.timeOf 768000 = 10000000 ∧ ((s 0).advance T).position = 768000
      ∧ ((after (.readerTakeItem T) (s 0)).damper 12).targetRaised = false
      ∧ ((after (.readerTakeItem T) (s 1)).damper 12).targetRaised = true
      ∧ (after (.readerTakeItem T) (s 1)).reader.timeline = [] := by decide +kernel

/-- The state before it meets what the placing asks: the DAMP is the reader's next item, and the note is the one event due. -/
theorem test_placed_damp_meets :
    let s (raise : Nat) : State :=
      let s := readingOf .playing [5, 0, 0, raise, 0, 0, 16, 0] 768000
      { s with
        reader := { s.reader with timeline := [⟨768000, .damp (raise = 0) (BitVec.twoPow 24 12)⟩] }
        options := { s.options with channels := s.options.channels.set 12 { s.settings 12 with damperLead := 0 } } }
    (∀ k ∈ [0, 1], (s k).reads T (.record { index := 0, pos := 768000 }) ∧ (s k).awake = true
        ∧ (s k).recordAtCursor { index := 0, pos := 768000 } = .event (.damp (k == 1) (BitVec.twoPow 24 12))
        ∧ (s k).station.finishing = false ∧ ((s k).settings 12).kind = .damper
        ∧ ∀ j, ((s k).advance T).firstDamp j = (if j = 12 then some (0, 10000000, k == 0) else none)
          ∧ (((s k).advance T).consumeDamp 0 12).firstDamp j = none) := by
  unfold State.reads
  decide +kernel

/-- A reader with a roll of voice 60 in slot 1, whose channels are 0 and 1, and a record behind its next stroke. -/
def rolling (ends : Pos) : State :=
  { readingOf .playing [3, 0, 0, 60, 80] 783360 with
    reader := { (readingOf .playing [3, 0, 0, 60, 80] 783360).reader with
      rolls := (Vector.replicate 4 none).set 1 (some ⟨60, 70, 782000, ends, 20, 1⟩) } }

/-- A stroke goes to the roll's next preferred channel, and the other is next; the last one empties the slot. -/
theorem test_reader_takes_strokes :
    let t := after (.readerTakeItem T) (rolling 790000)
    let full : State := { rolling 790000 with planner := { queue := (List.range 64).map fun k => strike (800000 + k), claims := [] } }
    full.steady = true
      ∧ t.planner.queue.map (fun e => (e.pos, e.velocity, e.preferred)) = [(782000, 70, 1)]
      ∧ t.planner.queue.map (fun e => (e.other, e.roll)) = [(some 0, true)]
      ∧ t.reader.rolls[(1 : Fin 4)] = some ⟨60, 70, 782320, 790000, 20, 0⟩
      ∧ t.reader.cursor = some { index := 0, pos := 783360 }
      ∧ (after (.readerTakeItem T) (rolling 782320)).reader.rolls[(1 : Fin 4)] = none
      ∧ alike (after (.readerTakeItem T) full) full := by decide +kernel

/-- A reader before a record at 783,360, where a strike stands in the queue. -/
def meeting (e : StrikeEntry) : State :=
  { readingOf .playing [3, 0, 0, 60, 90] 783360 with planner := { queue := [e], claims := [] } }

/-- A reader before a record at 783,360, in a bar of the mute window, or with a full roll table. -/
def muted : State :=
  { readingOf .playing [3, 0, 0, 60, 80] 783360 with
    reader := { (readingOf .playing [3, 0, 0, 60, 80] 783360).reader with mute := some ⟨3, 26, 26⟩ } }
def fourRolls : State :=
  { readingOf .playing [4, 0, 0, 60, 90, 0, 100, 20] 783360 with
    reader := { (readingOf .playing [4, 0, 0, 60, 90, 0, 100, 20] 783360).reader with
      rolls := Vector.replicate 4 (some ⟨60, 70, 790000, 800000, 20, 1⟩) } }

/-- The strokes and records of the tests around are the reader's next items. -/
theorem test_strokes_and_records_are_items :
    (rolling 790000).reads T (.stroke 1 ⟨60, 70, 782000, 790000, 20, 1⟩)
      ∧ (∀ s ∈ [meeting (strike 783360), meeting { armedStrike with pos := 783360 }, muted, fourRolls],
        s.reads T (.record { index := 0, pos := 783360 }) ∧ s.strikesOrdered)
      ∧ ∀ r ∈ [[3, 0, 0, 60, 0], [4, 0, 0, 60, 0, 0, 100, 20], [3, 0, 0, 61, 80], [4, 0, 0, 61, 80, 0, 100, 20],
          [4, 0, 0, 60, 90, 0, 100, 0]],
        (readingOf .playing r 783360).reads T (.record { index := 0, pos := 783360 }) := by
  unfold State.reads State.strikesOrdered
  decide +kernel

/-- A strike that meets one of its position and voice raises its velocity, or is discarded. -/
theorem test_reader_merges_strikes :
    (after (.readerTakeItem T) (meeting (strike 783360))).planner.queue.map StrikeEntry.velocity = [90]
      ∧ (after (.readerTakeItem T) (meeting { strike 783360 with velocity := 90 })).planner.queue = [{ strike 783360 with velocity := 90 }]
      ∧ (after (.readerTakeItem T) (meeting { armedStrike with pos := 783360 })).planner.queue = [{ armedStrike with pos := 783360 }] := by
  decide +kernel

/-- A strike taken late, its arm moment past, arms at its fire time, or now where that has passed, and is dropped beyond late_tol; an earlier entry that is due and wants its channel arms before it (R64, R73, R76). -/
theorem test_late_strike_arms_in_queue_order :
    let s (p : Pos) (q : List StrikeEntry) : State :=
      { readingOf .playing [3, 0, 0, 43, 80] p with planner := { queue := q, claims := [] } }
    let x := (part .playing).plannedStrike 768225 60 80 2 none false
    let e (p : Pos) := (part .playing).plannedStrike p 43 80 2 none false
    let go (p : Pos) (q : List StrikeEntry) : State := after (.readerTakeItem T) (s p q)
    (∀ p ∈ [(767900 : Pos), 768200, 768230], (s p []).reads T (.record { index := 0, pos := p })
        ∧ (s p []).recordAtCursor { index := 0, pos := p } = .strike 43 80 ∧ (s p []).fireBy (s p []) (e p) - 2000 ≤ (s p []).at T)
      ∧ (s 768230 [x]).reads T (.record { index := 0, pos := 768230 }) ∧ (s 768230 [x]).strikesOrdered
      ∧ (s 768200 []).awake = true ∧ (s 768200 []).voiceChannels 43 = some (2, none) ∧ (s 768200 []).reader.mute = none
      ∧ (s 768200 []).allowsArming = true ∧ (s 768200 []).projects 767900 = true ∧ (s 768200 []).armedOn 2 = none
      ∧ (go 768230 []).planner.queue = [{ e 768230 with phase := .armed 2 10001488 10001488 }]
      ∧ (go 768200 []).planner.queue = [{ e 768200 with phase := .armed 2 9999538 10000000 }]
      ∧ (go 767900 []).planner.queue = [] ∧ ((go 767900 []).channel 2).dropped = 1
      ∧ (go 767900 []).item srcDroppedLate = some (raisedItem ((s 767900 []).item srcDroppedLate) 2 T)
      ∧ x.before (e 768230) = true ∧ ((s 768230 [x]).advance T).armDue x = true ∧ (s 768230 [x]).at T ≤ (s 768230 [x]).fireBy (s 768230 [x]) x
      ∧ (go 768230 [x]).planner.queue
        = [{ (s 768230 [x]).armedBy (s 768230 [x]) x with projected := x.projected }, { e 768230 with phase := .planned true }] := by
  unfold State.reads State.strikesOrdered
  decide +kernel

/-- Rests, unassigned voices and rolls that become one strike. -/
theorem test_reader_passes_rests_and_degrades_rolls :
    let go (r : List Nat) : State := after (.readerTakeItem T) (readingOf .playing r 783360)
    ((go [3, 0, 0, 60, 0]).planner.queue = [] ∧ (go [3, 0, 0, 60, 0]).reader.cursor.map Cursor.index = some 1)
      ∧ (go [4, 0, 0, 60, 0, 0, 100, 20]).reader.rolls = Vector.replicate 4 none
      ∧ ((go [3, 0, 0, 61, 80]).item srcUnassignedVoice).map AttentionItem.firstDetail = some 61
      ∧ ((go [4, 0, 0, 61, 80, 0, 100, 20]).item srcUnassignedVoice).isSome = true
      ∧ (after (.readerTakeItem T) muted).planner.queue = []
      ∧ (go [4, 0, 0, 60, 90, 0, 100, 0]).planner.queue.map (fun e => (e.velocity, e.roll)) = [(90, false)]
      ∧ (after (.readerTakeItem T) fourRolls).planner.queue.length = 1
      ∧ ((after (.readerTakeItem T) fourRolls).item srcRollDegraded).map AttentionItem.firstDetail = some 60 := by decide +kernel

/-- The worked moves of the meter: a pending change, the ordinary line it cuts short, and a change on the line itself. -/
theorem test_meters :
    let m : Meter := { barStart := 768000, bpb := 4, bar := 26, change := none }
    m.setBar 780000 3 7 = { m with change := some ⟨783360, 3, 7⟩ } ∧ m.setBar 768000 20 7 = { m with bpb := 15, bar := 7 }
      ∧ (m.setBar 780000 3 7).step 783360 = some ⟨783360, 3, 7, none⟩ ∧ (m.setBar 780000 3 7).step 783359 = none
      ∧ m.step 798720 = some { m with barStart := 798720, bar := 27 } ∧ m.step 798719 = none := by decide +kernel

/-! ## The scan -/

/-- A scan of piece 3 at the record of an index, towards bar `n`. -/
def scanOf (k : Nat) (p : Pos) (n : Nat) : Scan :=
  { target := .startBar n, cursor := { index := k, pos := p }, groupStart := { index := 0, pos := 0 },
    meter := { barStart := 0, bpb := 4, bar := 1, change := none }, lineUntested := false, tempo := none, lastHold := none,
    dampers := Vector.replicate 24 none, rotor := none, held := [] }

def scanning (sc : Scan) : State := { part .countin with reader := { Reader.atReset with state := .scanning, scan := some sc } }

/-- The scan after one record. -/
def scanned (bytes : List Nat) : Option Scan := (after (.scanRecord T) (oneRecord (scanning (scanOf 0 0 9)) bytes)).reader.scan

theorem test_scan_notes_records :
    (∀ r ∈ [[2, 0, 0, 0, 0, 7, 83, 0], [6, 0, 0, 0, 5], [1, 0, 0, 0, 3, 0, 7], [7, 0, 0, 4, 0, 0, 0, 0], [3, 0, 0, 60, 80],
        [4, 0, 0, 60, 80, 0, 1, 1], [9, 0, 0], [5, 0, 0, 1, 0, 0, 16, 4]], (oneRecord (scanning (scanOf 0 0 9)) r).steady = true)
      ∧ (scanned [2, 0, 0, 0, 0, 7, 83, 0]).map Scan.tempo = some (some 480000)
      ∧ (scanned [6, 0, 0, 0, 5]).map Scan.rotor = some (some 5)
      ∧ (scanned [1, 0, 0, 0, 3, 0, 7]).map (fun x => (x.meter.bpb, x.meter.bar)) = some (3, 7)
      ∧ (scanned [7, 0, 0, 4, 0, 0, 0, 0]).map Scan.lastHold = some (some 4)
      ∧ (scanned [3, 0, 0, 60, 80]).map (fun x => x.cursor.index) = some 1
      ∧ (scanned [4, 0, 0, 60, 80, 0, 1, 1]).map (fun x => x.cursor.index) = some 1
      ∧ (scanned [9, 0, 0]).map (fun x => x.cursor.index) = some 1
      ∧ (scanned [5, 0, 0, 1, 0, 0, 16, 4]).map (fun x => (x.dampers[(12 : Chan)], x.dampers[(2 : Chan)])) = some (some true, none) := by
  decide +kernel

theorem test_scan_comes_to_the_end :
    (oneRecord (scanning (scanOf 0 0 9)) [8, 0, 0]).steady = true
      ∧ (after (.scanRecord T) (oneRecord (scanning (scanOf 0 0 9)) [8, 0, 0])).station.state = .ready
      ∧ (after (.scanRecord T) (oneRecord (scanning (scanOf 0 0 9)) [8, 0, 0])).reader.state = .idle := by decide +kernel

/-- A scan that stands at bar 2, at 30,720, untested, its next record at `p`, with its clock at position 0; `pb` puts the clock elsewhere. -/
def atBarTwo (p : Pos) (n : Nat) : Scan :=
  { scanOf 0 p n with lineUntested := true, meter := { barStart := 30720, bpb := 4, bar := 2, change := none } }

def towards (sc : Scan) (pb : Pos) (bytes : List Nat) : State :=
  { oneRecord (scanning sc) bytes with clock := { clock with pb := pb, pf := pb, start := some ⟨61440, none⟩ } }

/-- Bar 2 is ahead of the position: the scan hands it over with its last hold, and the reader goes on from the record at it; it waits where its noted target has no room. Behind the position the station goes to REJOINING and the scan on to the entry threshold. -/
theorem test_scan_hands_over :
    let s := towards { atBarTwo 30720 2 with lastHold := some 4 } 0 [3, 7, 128, 60, 80]
    let t := after (.scanRecord T) { s with clock := { s.clock with remembered := some 4 } }
    let full : State := { towards { atBarTwo 30720 2 with rotor := some 5 } 0 [3, 7, 128, 60, 80] with
      reader := { s.reader with
        scan := some { atBarTwo 30720 2 with rotor := some 5 }, timeline := (List.range 16).map fun k => ⟨900000 + k, .tempo 500000⟩ } }
    let late := towards { atBarTwo 30720 2 with lastHold := some 4 } 38400 [3, 7, 128, 60, 80]
    let l := after (.scanRecord T) late
    s.steady = true ∧ s.lineReached (atBarTwo 30720 2) = true ∧ s.position = 0
      ∧ (s.scanLine (atBarTwo 30720 2)).map (fun t => (t.reader.state, t.clock.start.map StartPosition.pos)) = some (.reading, some 30720)
      ∧ (t.reader.state, t.clock.start, t.reader.cursor.map Cursor.index) = (.reading, some ⟨30720, some ⟨4, 2, none⟩⟩, some 0)
      ∧ (t.clock.lastPassed, t.clock.remembered, t.reader.barMap) = (some 4, none, [(30720, 2)])
      ∧ full.steady = true ∧ alike (after (.scanRecord T) full) full
      ∧ late.steady = true ∧ late.awake = true ∧ (late.advance T).position = 38400
      ∧ (l.station.state, l.clock.start, l.clock.entryThreshold, l.clock.lastPassed) = (.rejoining, none, some 46080, some 4)
      ∧ l.reader.scan.map (fun x => (x.target, x.lineUntested, x.cursor.index)) = some (.entry, false, 1)
      ∧ alike (after (.scanRecord T) (part .ready)) (part .ready) := by decide +kernel

/-- A line that does not meet its target is passed, one with a BAR of its position ahead waits for it, and the lines up to the next record are tested in turn until one meets (R59). -/
theorem test_scan_tests_its_lines :
    let passed := towards (atBarTwo 30720 3) 0 [3, 7, 128, 60, 80]
    let waits := towards (atBarTwo 30720 2) 0 [1, 0, 0, 0, 3, 0, 7]
    let crossed := towards { atBarTwo 100000 4 with lineUntested := false } 0 [3, 7, 128, 60, 80]
    passed.steady = true ∧ waits.steady = true ∧ waits.lineReached (atBarTwo 30720 2) = false
      ∧ passed.targetMet (atBarTwo 30720 3) = false
      ∧ (after (.scanRecord T) passed).reader.scan.map (fun x => (x.lineUntested, x.cursor.index)) = some (false, 1)
      ∧ (after (.scanRecord T) waits).reader.scan = none
      ∧ (after (.scanRecord T) waits).clock.start = some ⟨30720, some ⟨3, 7, none⟩⟩
      ∧ crossed.testLines.reader.state = .reading ∧ crossed.testLines.clock.start = some ⟨92160, some ⟨4, 4, none⟩⟩
      ∧ (passed.setScan { atBarTwo 30720 3 with lineUntested := false }).testLines
        = passed.setScan { atBarTwo 30720 3 with lineUntested := false } := by decide +kernel

/-- The scans of these tests are lawful. -/
theorem test_scans_are_lawful : (atBarTwo 30720 2).lawful ∧ (towards (atBarTwo 30720 2) 0 [3, 7, 128, 60, 80]).scanLawful := by
  have h : (atBarTwo 30720 2).lawful := by
    refine ⟨by decide, by decide, by decide, ?_, ?_⟩
    · intro ch h
      cases h
    · intro k h
      cases h
  refine ⟨h, by decide, ?_⟩
  intro sc hs
  cases hs
  exact h

/-- An entry scan: a HOLD behind the clock is passed, one ahead is placed or waits; the bar at the threshold is handed over. -/
theorem test_entry_scan :
    let sc (p : Pos) : Scan := { scanOf 0 p 9 with target := .entry, meter := { barStart := 768000, bpb := 4, bar := 26, change := none } }
    let s (p : Pos) : State :=
      { oneRecord (scanning (sc p)) [7, 0, 0, 4, 0, 0, 0, 0] with
        station := station .rejoining, clock := { clock with entryThreshold := some 783360, remembered := some 4 } }
    let full (p : Pos) : State := { s p with
      reader := { (s p).reader with timeline := (List.range 16).map fun k => ⟨900000 + k, .tempo 500000⟩ } }
    let line : Scan := { sc 798720 with lineUntested := true, meter := { barStart := 798720, bpb := 4, bar := 27, change := none }, rotor := some 5 }
    (s 760000).steady = true ∧ (full 790000).steady = true
      ∧ (after (.scanRecord T) (s 760000)).clock.lastPassed = some 4 ∧ (after (.scanRecord T) (s 760000)).clock.remembered = none
      ∧ (after (.scanRecord T) (s 790000)).reader.timeline = [⟨790000, .hold 4 false 0 0⟩]
      ∧ alike (after (.scanRecord T) (full 790000)) (full 790000)
      ∧ (s 790000).lineReached line = true
      ∧ ((s 790000).scanLine line).map (fun t => (t.clock.entryBar, t.reader.timeline, t.reader.state))
        = some (some ⟨798720, 4, 27⟩, [⟨798720, .rotor 5⟩], .reading)
      ∧ ((after (.scanRecord T) ((s 790000).setScan line)).clock.entryBar, (after (.scanRecord T) ((s 790000).setScan line)).reader.state)
        = (some ⟨798720, 4, 27⟩, .reading)
      ∧ (full 790000).scanLine line = none ∧ alike (after (.scanRecord T) ((full 790000).setScan line)) ((full 790000).setScan line)
      ∧ ((s 790000).scanLine { line with meter := { line.meter with barStart := 775680 } }).map (fun t => t.reader.scan.map Scan.lineUntested)
        = some (some false) := by decide +kernel

/-- A HOLD with a TEMPO of its position behind it is held back, and noted when the scan goes on. -/
theorem test_scan_holds_records_back :
    let s : State := { scanning (scanOf 0 0 9) with
      store := [7, 0, 0, 4, 0, 0, 0, 0, 2, 0, 0, 0, 0, 7, 83, 0].zipIdx.map fun x => (0x1000 + x.2, BitVec.ofNat 8 x.1)
      parts := (part .countin).parts.set 3 (.valid 0x1000 2) }
    s.steady = true ∧ (after (.scanRecord T) s).reader.scan.map (fun x => (x.held, x.lastHold)) = some ([.hold 4 false 0 0], none)
      ∧ (after (.scanRecord (T + 2)) (after (.scanRecord T) s)).reader.scan.map (fun x => (x.held, x.lastHold, x.tempo))
        = some ([], some 4, some 480000) := by decide +kernel

/-! ## Strikes -/

/-- The worked case of 4.4: width and flight at readings 136 and 132, with 120 µs of trim. -/
def trimmed (reading : Nat) : State :=
  let s := (part .playing).setChannel 0 { Channel.atReset with trim := 120 }
  { s with rail := { s.rail with accepted := reading } }

theorem test_width_and_flight :
    (trimmed 136).figures 0 80 = ⟨2626, 13582, false⟩ ∧ (trimmed 132).figures 0 80 = ⟨2705, 13990, false⟩
      ∧ (trimmed 136).clock.timeOf 771840 - 13582 = 10236024 ∧ rawFlight (striker 0 10 .edge) 1 = 24000
      ∧ rawFlight (striker 0 10 .edge) 127 = 6000
      ∧ figuresOf { striker 4 10 .edge with baseW := 1500, slopeW := 64, minW := 800, maxW := 6000, flightMin := 5000, flightSpan := 12000 }
          90 144 144 0 = ⟨1860, 8524, false⟩ := by decide +kernel

/-- Arming at 10,234,024 with the reading at 132: written and effective fire time 10,235,616. -/
theorem test_arming :
    let s := { trimmed 132 with planner := { queue := [strike 771840], claims := [] } }
    s.steady = true ∧ (s.advance 10234024).armDue (strike 771840) = true ∧ (s.advance 10234023).armDue (strike 771840) = false
      ∧ (after (.armMoment 10234024) s).planner.queue.map (fun e => (e.phase, e.width, e.flight))
        = [(.armed 0 10235616 10235616, 2705, 13990)]
      ∧ (({ s with station := station .rejoining } : State).advance 10234024).armDue (strike 771840) = false
      ∧ (s.advance 10234024).armDue { strike 771840 with phase := .planned true } = false
      ∧ (s.advance 10234024).armDue armedStrike = false
      ∧ alike (after (.armMoment 10234023) s) (s.advance 10234023) := by decide +kernel

/-- With both channels of the voice DISABLED the entry is dropped. -/
theorem test_arming_without_a_channel :
    let off : Channel := { Channel.atReset with disabled := some .misses }
    let s := ({ part .playing with planner := { queue := [strike 771840], claims := [] } }.setChannel 0 off).setChannel 1 off
    s.steady = true ∧ (after (.armMoment 10234024) s).planner.queue = [] ∧ ((after (.armMoment 10234024) s).channel 0).dropped = 1
      ∧ ((after (.armMoment 10234024) s).item srcDroppedChannel).map AttentionItem.firstDetail = some 60 := by decide +kernel

/-- Arming where the preferred channel does not pass: the other channel, a deferral, the channel free soonest, and a drop for lateness. -/
theorem test_arming_chooses :
    let s := { part .playing with planner := { queue := [strike 771840], claims := [] } }
    let off : Channel := { Channel.atReset with disabled := some .misses }
    let free (d : Time) : Channel := { Channel.atReset with recoveryEnd := some d }
    let phase (s : State) := (after (.armMoment 10234024) s).planner.queue.map StrikeEntry.phase
    let armed1 : StrikeEntry := { strike 771000 with phase := .armed 0 10235000 10235000, width := 2705, flight := 13990 }
    let held : State := { s.setChannel 1 off with planner := { queue := [armed1, strike 771840], claims := [] } }
    s.steady = true ∧ held.steady = true ∧ phase (s.setChannel 0 off) = [.armed 1 10236144 10236144]
      ∧ phase held = [.armed 0 10235000 10235000, .planned true]
      ∧ phase ((s.setChannel 0 (free 10240000)).setChannel 1 (free 10239000)) = [.armed 1 10236144 10239000]
      ∧ phase ((s.setChannel 0 (free 10239000)).setChannel 1 (free 10239000)) = [.armed 0 10236144 10239000]
      ∧ phase ((s.setChannel 0 (free 10252000)).setChannel 1 off) = [] := by decide +kernel

/-- The preferred channel holds an armed strike and the other one is free too late: the one that is free sooner is taken, for an arming, a deferral or a drop (R75 step 4). -/
theorem test_arming_takes_the_soonest :
    let armed1 : StrikeEntry := { strike 771000 with phase := .armed 0 10235000 10235000, width := 2705, flight := 13990 }
    let s (d : Time) : State := { part .playing with
      planner := { queue := [armed1, strike 771840], claims := [] } }.setChannel 1 { Channel.atReset with recoveryEnd := some d }
    let free : Time := 10235000 + 2705 + 32705
    let phase (s : State) := (after (.armMoment 10234024) s).planner.queue.map StrikeEntry.phase
    (s 10250000).steady = true ∧ (s 10250000).strikesOrdered ∧ ((s 10250000).advance 10234024).armDue (strike 771840) = true
      ∧ (s 10250000).freeWithArmed 10234024 0 = free ∧ (s 10250000).freeWithArmed 10234024 1 = 10250000
      ∧ phase (s 10250000) = [.armed 0 10235000 10235000, .armed 1 10236144 10250000]
      ∧ phase (s free) = [.armed 0 10235000 10235000, .planned true]
      ∧ phase (s 10251145) = [.armed 0 10235000 10235000] ∧ ((after (.armMoment 10234024) (s 10251145)).channel 1).dropped = 1
      ∧ phase ((s 10250000).setChannel 0 { Channel.atReset with disabled := some .misses })
        = [.armed 0 10235000 10235000, .armed 1 10236144 10250000] := by
  refine ⟨by decide +kernel, ?_, by decide +kernel⟩
  unfold State.strikesOrdered
  decide +kernel

/-- The part with the strike of the worked case armed on channel 0. -/
def armed : State := { part .playing with planner := { queue := [armedStrike], claims := [] } }

theorem test_fire :
    armed.steady = true ∧ armed.armedOn 0 = some armedStrike
      ∧ ((after (.fireTimeReached 10235616 0) armed).channel 0).pulse.map Pulse.ends = some 10238321
      ∧ ((after (.fireTimeReached 10235616 0) armed).channel 0).fired = 1 ∧ (after (.fireTimeReached 10235616 0) armed).planner.queue = []
      ∧ (after (.fireTimeReached 10235616 0) armed).drv 0 = true
      ∧ ((after (.fireTimeReached 10235615 0) armed).channel 0).pulse = none
      ∧ ((after (.fireTimeReached 10235616 0) { armed with rail := { armed.rail with band := .cut } }).channel 0).dropped = 1
      ∧ alike (after (.fireTimeReached 10235616 1) armed) (armed.advance 10235616) := by decide +kernel

theorem test_fire_claims_a_slot :
    let s := { armed with options := { settings with driveSlots := 0 } }
    s.steady = true ∧ s.slotsInUse = 0
      ∧ (after (.fireTimeReached 10235616 0) s).planner.claims = [⟨10235616, 0, .strike⟩]
      ∧ (after (.claimLateDrop 10250616) { s with planner := { s.planner with claims := [⟨10235616, 0, .strike⟩] } }).planner.claims.length = 1
      ∧ (after (.claimLateDrop 10250617) { s with planner := { s.planner with claims := [⟨10235616, 0, .strike⟩] } }).planner.claims = []
      ∧ ((after (.claimLateDrop 10250617) { s with planner := { s.planner with claims := [⟨10235616, 0, .strike⟩] } }).channel 0).dropped = 1
      ∧ ((after (.claimLateDrop 10250617) { s with planner := { s.planner with claims := [⟨10235616, 0, .strike⟩] } }).item srcDroppedLate).isSome = true := by
  decide +kernel

/-- A strike deferred on channel 0 arms there when the armed one fires, for the end of the recovery, or is dropped where that is too late (R75, R76). -/
theorem test_deferred_strike_arms :
    let y : StrikeEntry := { strike 772370 with phase := .planned true, other := none }
    let s (tol : Int) : State := { armed with options := { settings with lateTol := tol }, planner := { queue := [armedStrike, y], claims := [] } }
    let t (tol : Int) := after (.fireTimeReached 10235616 0) (s tol)
    (s 15000).steady = true ∧ (s 15000).armedOn 0 = some armedStrike ∧ ((t 15000).planner.queue.map StrikeEntry.phase) = [.armed 0 10270594 10271026]
      ∧ (t 431).planner.queue = [] ∧ ((t 431).channel 0).dropped = 1
      ∧ ((t 431).item srcDroppedLate).map AttentionItem.firstDetail = some 0 := by decide +kernel

/-- A strike whose channel is DISABLED at its fire time: armed on the other channel for later, fired there at once, or dropped (R78). -/
theorem test_disabled_strike_is_chosen_anew :
    let off : Channel := { Channel.atReset with disabled := some .misses }
    let s (p : Pos) : State := { armed.setChannel 0 off with planner := { queue := [{ armedStrike with pos := p }], claims := [] } }
    let t (p : Pos) := after (.fireTimeReached 10235616 0) (s p)
    let none' := after (.fireTimeReached 10235616 0) ((s 771840).setChannel 1 off)
    (s 771840).steady = true ∧ ((t 771840).planner.queue.map StrikeEntry.phase) = [.armed 1 10236144 10236144]
      ∧ ((t 771830).channel 1).pulse.isSome = true ∧ (t 771830).planner.queue = []
      ∧ none'.planner.queue = [] ∧ (none'.channel 0).dropped = 1
      ∧ (none'.item srcDroppedChannel).map AttentionItem.firstDetail = some 60 := by decide +kernel

/-- The pulse of the worked case of 5.3. -/
def pulse : Pulse := ⟨10235616, 2705, 13990, 10235616, false, false, false, .normal, 10238321⟩
def driving : State := (part .playing).setChannel 0 { Channel.atReset with pulse := some pulse }

/-- At full width the recovery ends at 10,271,026, and the record waits for the impact at 10,249,606. -/
theorem test_pulse_end :
    driving.steady = true ∧ ((after (.pulseEnd 10238321 0) driving).channel 0).recoveryEnd = some 10271026
      ∧ ((after (.pulseEnd 10238321 0) driving).channel 0).pulse = none
      ∧ (after (.pulseEnd 10238321 0) driving).confirm.map (fun r => (r.expected, r.opens, r.closes)) = [(10249606, 10246606, 10255606)]
      ∧ ((after (.pulseEnd 10238320 0) driving).channel 0).pulse = some pulse
      ∧ ((after (.recoveryEnd T 0) ((part .playing).setChannel 0 { Channel.atReset with recoveryEnd := some 10000000 })).channel 0).recoveryEnd = none
      ∧ alike (after (.pulseEnd T 1) driving) driving := by decide +kernel

/-- A list of 32 records that open one after the other from 10,300,000 on, on channel 1. -/
def manyRecords : List ConfirmRecord :=
  (List.range 32).map fun k : Nat => ⟨1, 10, 10303000 + k, 10300000 + k, 10309000 + k, false, false, false, false, false, .normal⟩

/-- Into a full list: the newcomer that stands first is MISSED, and otherwise the first record is, and the newcomer takes its place. -/
theorem test_record_into_a_full_list :
    let s (records : List ConfirmRecord) : State := { driving with confirm := records }
    let first := after (.pulseEnd 10238321 0) (s manyRecords)
    let early := manyRecords.map fun r => { r with opens := r.opens - 100000 }
    let other := after (.pulseEnd 10238321 0) (s early)
    (s manyRecords).steady = true ∧ (s early).steady = true ∧ first.confirm = manyRecords ∧ (first.channel 0).missed = 1
      ∧ (first.item srcMiss).map AttentionItem.firstDetail = some 0
      ∧ other.confirm.length = 32 ∧ other.confirm.getLast?.map ConfirmRecord.opens = some 10246606 ∧ (other.channel 1).missed = 1
      ∧ (other.channel 0).missed = 0 ∧ (other.item srcMiss).map AttentionItem.firstDetail = some 1 := by decide +kernel

/-- A record whose open time has come when it is placed: its window opens at once, takes a held edge, which teaches, or a held level, and is MISSED where its close time has come too. -/
theorem test_record_placed_open :
    let s (c : Chan) (x : SensorInput) : State :=
      ((part .playing).setChannel c { Channel.atReset with pulse := some pulse }).setInput (if c = 2 then 11 else 10) x
    let edge := s 0 { SensorInput.atReset with asserted := true, latch := some ⟨10250000, false⟩ }
    let level := s 2 { SensorInput.atReset with asserted := true, latch := some ⟨10240000, true⟩ }
    let bare := s 0 SensorInput.atReset
    let t := after (.pulseEnd 10250100 0) edge
    edge.steady = true ∧ level.steady = true ∧ bare.steady = true
      ∧ t.confirm = [] ∧ (t.channel 0).confirmed = 1 ∧ (t.channel 0).trim = 49 ∧ (t.input 10).latch = none
      ∧ (t.input 10).quietUntil = some 10280100 ∧ t.item srcStray = none
      ∧ ((after (.pulseEnd 10250100 2) level).channel 2).confirmed = 1 ∧ ((after (.pulseEnd 10250100 2) level).channel 2).trim = 0
      ∧ (after (.pulseEnd 10250100 0) bare).confirm.map ConfirmRecord.isOpen = [true]
      ∧ (after (.pulseEnd 10260000 0) bare).confirm = [] ∧ ((after (.pulseEnd 10260000 0) bare).channel 0).missed = 1 := by
  decide +kernel

/-- The rail's cut and ENTER_SERVICE place their records into a full list as well, and open a window that is due. -/
theorem test_cuts_into_a_full_list :
    let s (st : StationState) (records : List ConfirmRecord) : State := { driving with
      station := station st, rail := { driving.rail with cutRun := 7, downRun := 7 }, confirm := records }
    (∀ st ∈ [StationState.playing, .ready], (s st manyRecords).steady = true)
      ∧ (∀ t ∈ [after (.railSample 10237000 27750) (s .playing manyRecords), after (.enterService 10237000 4 9 0) (s .ready manyRecords)],
        t.confirm = manyRecords ∧ (t.channel 0).missed = 1 ∧ (t.channel 0).pulse = none)
      ∧ ∀ t ∈ [after (.railSample 10247000 27750) (s .playing []), after (.enterService 10247000 4 9 0) (s .ready [])],
        t.confirm.map (fun r => (r.isOpen, r.cut)) = [(true, true)] := by decide +kernel

/-- At ENTER_SERVICE a pulse 1,000 µs old is ended as cut: its recovery of 31,000 µs begins, its record is handed over, the reply is DONE. -/
theorem test_service_cuts_the_pulses :
    let s := { driving with station := station .ready }
    let t := after (.enterService 10236616 4 9 0) s
    s.steady = true ∧ t.station.state = .service ∧ (t.channel 0).pulse = none ∧ (t.channel 0).recoveryEnd = some 10267616
      ∧ (∀ r ∈ s.cutRecords, s.at 10236616 < r.opens) ∧ t.confirm = s.cutRecords ∧ s.cutRecords.map ConfirmRecord.opens = [10246606]
      ∧ replyOf t = some (.done, 0) := by decide +kernel

/-- A slot given up goes to the damper that waits for it. -/
theorem test_slot_goes_to_the_damper :
    let s := { driving with options := { settings with driveSlots := 1 }, planner := { queue := [], claims := [⟨5, 12, .damper⟩] } }
    s.steady = true ∧ (∀ k, (s.advance 10238321).firstDamp k = none) ∧ s.slotsInUse = 1
      ∧ ((after (.pulseEnd 10238321 0) s).damper 12).state = .raising
      ∧ ((after (.pulseEnd 10238321 0) s).damper 12).pullInEnd = some 10268321 ∧ (after (.pulseEnd 10238321 0) s).planner.claims = [] := by
  decide +kernel

/-- Two strikes of one moment, for the slot that a pulse gives up: the earlier written fire time, or the lower channel, takes it. -/
theorem test_slot_is_granted_in_list_order :
    let e (c : Chan) (p : Pos) (w : Time) : StrikeEntry := { strike p with phase := .armed c w 10238321, preferred := c }
    let s (w : Time) : State := { (part .playing).setChannel 2 { Channel.atReset with pulse := some pulse } with
      options := { settings with driveSlots := 1 }, planner := { queue := [e 1 771840 w, e 0 771841 10238321], claims := [] } }
    (s 10238320).steady = true ∧ (s 10238320).slotsInUse = 1 ∧ (∀ k, ((s 10238320).advance 10238321).firstDamp k = none)
      ∧ ((after (.pulseEnd 10238321 2) (s 10238320)).channel 1).pulse.isSome = true
      ∧ (after (.pulseEnd 10238321 2) (s 10238320)).planner.claims = [⟨10238321, 0, .strike⟩]
      ∧ ((after (.pulseEnd 10238321 2) (s 10238321)).channel 0).pulse.isSome = true
      ∧ (after (.pulseEnd 10238321 2) (s 10238321)).planner.claims = [⟨10238321, 1, .strike⟩] := by decide +kernel

/-- A strike fires at the moment its channel's last pulse ends, on the one slot that stands free: the slot that pulse gives up goes to the earlier written of two other strikes of that moment (R80, R81, R89). -/
theorem test_fire_time_ends_the_last_pulse :
    let e (c : Chan) (p : Pos) (w : Time) : StrikeEntry := { strike p with phase := .armed c w 10238321, preferred := c }
    let s (w : Time) : State := { driving with
      options := { settings with driveSlots := 2 }
      planner := { queue := [e 0 771840 10238321, e 1 771841 w, e 2 771842 10238320], claims := [] } }
    let go (w : Time) : State := after (.fireTimeReached 10238321 0) (s w)
    (∀ w ∈ [(10238319 : Time), 10238320, 10238321], (s w).steady = true ∧ (s w).awake = true ∧ (s w).slotsLawful
        ∧ (s w).strikesOrdered ∧ (s w).slotsInUse + 1 = (s w).options.driveSlots ∧ (s w).rail.band ≠ .cut
        ∧ (∀ k, ((s w).advance 10238321).firstDamp k = none)
        ∧ (s w).at 10238321 < pulse.start + pulse.flight - (s w).options.winEarly
        ∧ (go w).confirm = insertConfirm ((s w).recordAt 0 pulse false) []
        ∧ ((go w).channel 0).pulse
          = some ⟨10238321, 2626, 13582, 10238321, false, false, false, .normal, 10240947⟩)
      ∧ (∀ w ∈ [(10238319 : Time), 10238320], (go w).planner.claims = [⟨10238320, 2, .strike⟩]
        ∧ ((go w).channel 1).pulse = some ⟨10238321, 2626, 13582, w, false, true, false, .normal, 10240947⟩)
      ∧ (go 10238321).planner.claims = [⟨10238321, 1, .strike⟩]
      ∧ ((go 10238321).channel 2).pulse = some ⟨10238321, 2626, 13582, 10238320, false, true, false, .normal, 10240947⟩
      ∧ ((go 10238321).channel 1).pulse = none := by
  unfold State.slotsLawful State.strikesOrdered
  decide +kernel

/-- The claims of the moment a slot falls free: a strike that is chosen anew there comes before a damper's later claim, and a raise behind a lower that moves nothing makes its claim (R78, R80). -/
theorem test_claims_join_before_the_grant :
    let full : State := { (part .playing).setChannel 2 { Channel.atReset with pulse := some pulse } with
      options := { settings with driveSlots := 1 } }
    let s : State := { full.setChannel 0 { Channel.atReset with disabled := some .misses } with
      planner := { queue := [armedStrike], claims := [⟨10238000, 12, .damper⟩] } }
    let d : State := { full with reader := { Reader.atReset with
      timeline := [⟨768000, .damp false (BitVec.twoPow 24 12)⟩, ⟨768001, .damp true (BitVec.twoPow 24 12)⟩] } }
    s.steady = true ∧ ((after (.pulseEnd 10238321 2) s).channel 1).pulse.isSome = true
      ∧ (after (.pulseEnd 10238321 2) s).planner.claims = [⟨10238000, 12, .damper⟩]
      ∧ d.steady = true ∧ ((after (.pulseEnd 10238321 2) d).damper 12).state = .raising
      ∧ (after (.pulseEnd 10238321 2) d).reader.timeline = [] := by decide +kernel

/-- A slot falls free at the moment a claim has passed the tolerance: whichever is taken first, the strike deferred behind it arms due at once and takes the slot before a damper of a later due time (R80, R82). -/
theorem test_late_drop_and_freed_slot_commute :
    let late : StrikeEntry := { strike 770000 with phase := .armed 0 10223320 10223320, width := 2705, flight := 13990 }
    let next : StrikeEntry := { strike 771840 with phase := .planned true, other := none }
    let s : State := { (part .playing).setChannel 2 { Channel.atReset with pulse := some pulse } with
      options := { settings with driveSlots := 1 }
      planner := { queue := [late, next], claims := [⟨10223320, 0, .strike⟩, ⟨10238000, 12, .damper⟩] } }
    let one := after (.claimLateDrop 10238321) (after (.pulseEnd 10238321 2) s)
    let two := after (.pulseEnd 10238321 2) (after (.claimLateDrop 10238321) s)
    s.steady = true ∧ (one.channel 0).pulse.isSome = true ∧ one.planner.claims = [⟨10238000, 12, .damper⟩]
      ∧ (one.channel 0).dropped = 1 ∧ one.channels = two.channels ∧ one.planner = two.planner
      ∧ one.attention = two.attention ∧ one.dampers = two.dampers := by decide +kernel

/-! ## Hit confirmation -/

/-- The two records of the flam of 6.6, on channels 0 and 1 and their shared input 10; the first is open. -/
def recA : ConfirmRecord := ⟨0, 10, 5008524, 5005524, 5014524, true, false, false, false, false, .normal⟩
def recB : ConfirmRecord := ⟨1, 10, 5012524, 5009524, 5018524, false, false, false, false, false, .normal⟩
def flam : State := { part .playing with now := 5005860, confirm := [recA, recB] }

theorem test_flam :
    flam.steady = true ∧ ((after (.sensorAssertion 5009220 10) flam).channel 0).trim = 85
      ∧ ((after (.sensorAssertion 5009220 10) flam).channel 0).confirmed = 1
      ∧ (after (.sensorAssertion 5009220 10) flam).confirm = [recB]
      ∧ ((after (.sensorAssertion 5009220 10) flam).input 10).quietUntil = some 5039220
      ∧ ((after (.sensorAssertion 5011020 10) { flam with confirm := [{ recB with isOpen := true }] }).channel 1).trim = -191 := by
  decide +kernel

/-- With no open record an assertion is held under a pulse, is a STRAY with none, and is silent up to the quiet-until time. -/
theorem test_unmatched_assertions :
    let quiet (q : Time) := (part .playing).setInput 10 { SensorInput.atReset with quietUntil := some q }
    ((after (.sensorAssertion T 10) driving).input 10).latch = some ⟨9999980, false⟩
      ∧ ((after (.sensorAssertion T 10) (part .playing)).item srcStray).map AttentionItem.firstDetail = some 10
      ∧ (after (.sensorAssertion T 10) (quiet 9999980)).item srcStray = none
      ∧ ((after (.sensorAssertion T 10) (quiet 9999979)).item srcStray).isSome = true
      ∧ (part .playing).isHitInput 10 = true ∧ driving.drivenOn 10 = true := by decide +kernel

/-- A held assertion is judged when the last pulse on its input ends, or at an EDGE_LEVEL release: a STRAY, or silent. -/
theorem test_held_assertions_are_judged :
    let s (c i : Chan) (quiet : Option Time) : State :=
      ((part .playing).setChannel c { Channel.atReset with pulse := some pulse }).setInput i
        { SensorInput.atReset with asserted := true, latch := some ⟨10238000, false⟩, quietUntil := quiet }
    let edge := s 0 10 none
    let level := s 2 11 none
    edge.steady = true ∧ level.steady = true ∧ edge.inputMode 10 = .edge ∧ level.inputMode 11 = .edgeLevel
      ∧ ((after (.pulseEnd 10238321 0) edge).item srcStray).map AttentionItem.firstDetail = some 10
      ∧ ((after (.pulseEnd 10238321 0) edge).input 10).latch = none
      ∧ ((after (.pulseEnd 10238321 2) level).item srcStray).map AttentionItem.firstDetail = some 11
      ∧ ((after (.pulseEnd 10238321 2) level).input 11).latch = some ⟨10238000, true⟩
      ∧ (after (.pulseEnd 10238321 0) (s 0 10 (some 10238000))).item srcStray = none
      ∧ ((after (.sensorRelease 10238100 11) level).item srcStray).map AttentionItem.firstDetail = some 11
      ∧ ((after (.sensorRelease 10238100 11) level).input 11).latch = none
      ∧ (after (.sensorRelease 10238100 11) (s 2 11 (some 10238000))).item srcStray = none
      ∧ (after (.sensorRelease 10238100 10) edge).item srcStray = none := by decide +kernel

/-- A sensor input that has been asserted. -/
def touched (i : Chan) : State :=
  (part .playing).setInput i { SensorInput.atReset with asserted := true, latch := some ⟨9900000, true⟩, stuck := true, stuckDeadline := some 10000000 }

theorem test_release_and_damper_checks :
    (touched 11).steady = true ∧ ((after (.sensorRelease T 11) (touched 11)).input 11) = SensorInput.atReset
      ∧ ((after (.sensorRelease T 10) (touched 10)).input 10).stuck = true
      ∧ ((after (.sensorRelease T 10) (touched 10)).input 10).asserted = false
      ∧ ((after (.sensorAssertion T 5) ((part .playing).setDamper 12 ⟨true, .raising, none, some ⟨true, 10000001⟩⟩)).damper 12).check = none
      ∧ ((after (.sensorRelease T 5) ((touched 5).setDamper 12 ⟨false, .lowering, none, some ⟨false, 10000001⟩⟩)).damper 12).state = .lowered
      ∧ alike (after (.sensorAssertion T 7) (part .playing)) (part .playing) ∧ alike (after (.sensorRelease T 7) (part .playing)) (part .playing) := by
  decide +kernel

/-- An open window waits, or takes an unused edge or a held level; it closes as a MISS, the third of which disables. -/
theorem test_windows :
    let s := { flam with confirm := [{ recA with isOpen := false, opens := 5005860 }] }
    let lit := s.setInput 10 { SensorInput.atReset with asserted := true, latch := some ⟨5005000, false⟩ }
    (after (.windowOpen 5005860) s).confirm.map ConfirmRecord.isOpen = [true]
      ∧ (after (.windowOpen 5005860) { s with confirm := [{ recA with isOpen := false, opens := 5005861 }] }).confirm.map ConfirmRecord.isOpen = [false]
      ∧ ((lit.setChannel 0 { Channel.atReset with pulse := some pulse }).steady = true)
      ∧ (after (.windowOpen 5005860) (lit.setChannel 0 { Channel.atReset with pulse := some pulse })).confirm = []
      ∧ (let t := after (.windowOpen 5005860) (lit.setChannel 0 { Channel.atReset with pulse := some pulse })
        (t.channel 0).confirmed = 1 ∧ (t.channel 0).trim = -441 ∧ (t.input 10).latch = none ∧ (t.input 10).quietUntil = some 5035860) := by
  decide +kernel

/-- The held level of an EDGE_LEVEL input confirms the record whose window opens; not while the input is stuck. -/
theorem test_window_opens_on_a_held_level :
    let s : State := { part .playing with
      confirm := [⟨2, 11, 10003000, 10000000, 10009000, false, false, false, false, false, .normal⟩] }
    let held (stuck : Bool) : State := s.setInput 11 { SensorInput.atReset with
      asserted := true, latch := some ⟨9990000, true⟩, stuck := stuck, stuckDeadline := some 10190000 }
    (held false).steady = true ∧ (held false).inputMode 11 = .edgeLevel ∧ (after (.windowOpen T) (held false)).confirm = []
      ∧ ((after (.windowOpen T) (held false)).channel 2).confirmed = 1 ∧ ((after (.windowOpen T) (held false)).channel 2).trim = 0
      ∧ (held true).steady = true ∧ (after (.windowOpen T) (held true)).confirm.map ConfirmRecord.isOpen = [true] := by decide +kernel

theorem test_window_closes :
    let s := flam.setChannel 0 { Channel.atReset with misses := 2 }
    s.steady = true ∧ ((after (.windowClose 5014524) s).channel 0).disabled = some .misses
      ∧ ((after (.windowClose 5014524) s).channel 0).missed = 1 ∧ ((after (.windowClose 5014524) s).item srcMiss).isSome = true
      ∧ ((after (.windowClose 5014524) s).item srcChannelMisses).isSome = true ∧ (after (.windowClose 5014524) s).confirm = [recB]
      ∧ (after (.windowClose 5014523) s).confirm = [recA, recB] := by decide +kernel

theorem test_stuck :
    let s := (part .playing).setInput 11 { SensorInput.atReset with asserted := true, latch := some ⟨9800000, true⟩, stuckDeadline := some 10000000 }
    s.steady = true ∧ ((after (.stuckDeadline T 11) s).channel 2).disabled = some .stuck ∧ ((after (.stuckDeadline T 11) s).input 11).stuck = true
      ∧ ((after (.stuckDeadline T 11) s).item srcChannelStuck).map AttentionItem.firstDetail = some 2
      ∧ ((after (.stuckDeadline T 11) s).channel 0).disabled = none
      ∧ alike (after (.stuckDeadline T 10) s) s := by decide +kernel

/-- An input that two channels name disables both and raises its item twice, the lower channel first. -/
theorem test_stuck_input_of_two_channels :
    let s := (part .playing).setInput 10 { SensorInput.atReset with
      asserted := true, latch := some ⟨9800000, true⟩, stuckDeadline := some 10000000 }
    let t := after (.stuckDeadline T 10) s
    s.steady = true ∧ (t.channel 0).disabled = some .stuck ∧ (t.channel 1).disabled = some .stuck
      ∧ (t.item srcChannelStuck).map (fun i => (i.count, i.firstDetail)) = some (2, 0) := by decide +kernel

/-! ## Dampers and the rotor -/

/-- A damper in a state, with a DAMP event for it 40 ms ahead of its position, which is due now. -/
def damped (d : Damper) (raise : Bool) : State :=
  { part .playing with
    dampers := (part .playing).dampers.set 12 d
    reader := { Reader.atReset with timeline := [⟨768615, .damp raise (BitVec.twoPow 24 12)⟩] } }

theorem test_damp_events :
    let up := damped Damper.atReset true
    let down := damped ⟨true, .raised, none, none⟩ false
    let cut (s : State) : State := { s with rail := { s.rail with band := .cut } }
    up.steady = true ∧ down.steady = true ∧ (up.advance T).firstDamp 12 = some (0, 9999976, true)
      ∧ ((after (.dampApply T 12) up).damper 12) = ⟨true, .raising, some 10030000, some ⟨true, 10100000⟩⟩
      ∧ (after (.dampApply T 12) up).drv 12 = true ∧ (after (.dampApply T 12) up).reader.timeline = []
      ∧ ((after (.dampApply T 12) down).damper 12) = ⟨false, .lowered, none, none⟩
      ∧ (after (.dampApply T 12) (cut up)).planner.claims = [⟨10000000, 12, .damper⟩]
      ∧ ((after (.dampApply T 12) (damped Damper.atReset false)).damper 12) = Damper.atReset := by decide +kernel

/-- With no slot free the claim of a raise waits behind an earlier one. -/
theorem test_raise_without_a_slot :
    let s := damped Damper.atReset true
    let s := { s with options := { settings with driveSlots := 0 }, planner := { queue := [], claims := [⟨5, 3, .damper⟩] } }
    s.steady = true ∧ s.rail.band = .normal ∧ (s.advance T).firstDamp 12 = some (0, 9999976, true)
      ∧ (after (.dampApply T 12) s).planner.claims = [⟨5, 3, .damper⟩, ⟨10000000, 12, .damper⟩]
      ∧ ((after (.dampApply T 12) s).damper 12) = ⟨true, .lowered, none, none⟩ := by decide +kernel

/-- A raise applies while the station finishes as well, and whether it comes before or after the END of its moment decides the target (R121, R122; log 68). -/
theorem test_raise_while_finishing :
    let s := damped Damper.atReset true
    let s := { s with station := { s.station with finishing := true }, planner := { queue := [strike 771840], claims := [] } }
    let e := { s with
      station := station .playing
      confirm := [⟨0, 10, 10905000, 10902000, 10911000, false, false, false, false, false, .normal⟩]
      reader := { s.reader with timeline := s.reader.timeline ++ [⟨768000, .endOfPart⟩] } }
    s.steady = true ∧ ((after (.dampApply T 12) s).damper 12).state = .raising ∧ (after (.dampApply T 12) s).reader.timeline = []
      ∧ ((after (.endReached T) (after (.dampApply T 12) e)).damper 12).targetRaised = false
      ∧ ((after (.dampApply T 12) (after (.endReached T) e)).damper 12).targetRaised = true
      ∧ (after (.dampApply T 12) (after (.endReached T) e)).station.finishing = true := by
  decide +kernel

/-- A lowered damper withdraws its waiting claim; a channel that is no damper is not moved. -/
theorem test_damper_claim_is_withdrawn :
    let s := damped ⟨true, .lowered, none, none⟩ false
    let s := { s with rail := { s.rail with band := .cut }, planner := { queue := [], claims := [⟨5, 12, .damper⟩] } }
    s.steady = true ∧ (after (.dampApply T 12) s).planner.claims = [] ∧ ((after (.dampApply T 12) s).damper 12).targetRaised = false
      ∧ alike (after (.dampApply T 0) s) s ∧ alike (after (.dampApply T 12) (part .playing)) (part .playing) := by decide +kernel

theorem test_pull_in_and_check :
    let up := (part .playing).setDamper 12 ⟨true, .raising, some 10000000, some ⟨true, 10000000⟩⟩
    let down := (part .playing).setDamper 12 ⟨false, .lowering, none, some ⟨false, 10000000⟩⟩
    up.steady = true ∧ ((after (.pullInEnd T 12) up).damper 12).state = .raised ∧ ((after (.pullInEnd T 12) up).damper 12).pullInEnd = none
      ∧ ((after (.damperCheckDeadline T 12) up).damper 12).check = none
      ∧ ((after (.damperCheckDeadline T 12) up).item srcDamperFault).map AttentionItem.firstDetail = some 12
      ∧ ((after (.damperCheckDeadline T 12) down).damper 12).state = .lowered
      ∧ alike (after (.pullInEnd T 12) (part .playing)) (part .playing)
      ∧ alike (after (.damperCheckDeadline T 12) (part .playing)) (part .playing) := by decide +kernel

/-- The slot of a pull-in that ends goes to the damper or the strike that waits first, the claim behind it waiting on; before its end nothing happens. -/
theorem test_pull_in_gives_its_slot_on :
    let s (cs : List Claim) : State := { armed.setDamper 12 ⟨true, .raising, some 10235616, none⟩ with
      options := { settings with driveSlots := 1, channels := channels.set 13 { channels[12] with output := 13 } }
      planner := { queue := [armedStrike], claims := cs } }
    let go (cs : List Claim) := after (.pullInEnd 10235616 12) (s cs)
    (s [⟨5, 13, .damper⟩, ⟨10235616, 0, .strike⟩]).steady = true ∧ (s []).slotsInUse = 1 ∧ (s []).slotsLawful
      ∧ (∀ k, ((s []).advance 10235616).firstDamp k = none) ∧ (s []).armedOn 0 = some armedStrike
      ∧ (∀ x ∈ (s []).planner.queue, x.deferredOn [0] = false)
      ∧ ((go [⟨5, 13, .damper⟩, ⟨10235616, 0, .strike⟩]).damper 13).pullInEnd = some 10265616
      ∧ ((go [⟨5, 13, .damper⟩, ⟨10235616, 0, .strike⟩]).damper 12).state = .raised
      ∧ (go [⟨5, 13, .damper⟩, ⟨10235616, 0, .strike⟩]).planner.claims = [⟨10235616, 0, .strike⟩]
      ∧ ((go [⟨10235616, 0, .strike⟩, ⟨10235617, 13, .damper⟩]).channel 0).pulse.map Pulse.ends = some 10238321
      ∧ (go [⟨10235616, 0, .strike⟩, ⟨10235617, 13, .damper⟩]).planner.claims = [⟨10235617, 13, .damper⟩]
      ∧ alike (after (.pullInEnd 10235615 12) (s [])) ((s []).advance 10235615) := by
  unfold State.slotsLawful
  decide +kernel

theorem test_tach :
    (after (.tachEdge T) (part .playing)).rotor.window = 1 ∧ (after (.tachEdge T) (part .holding)).rotor.window = 0
      ∧ (after (.tachEdge T) { part .playing with rotor := { Rotor.atReset with window := 255 } }).rotor.window = 255 := by decide +kernel

/-- The worked sequence of 7.5: spin-up, and a stall at the second beat with no count. -/
theorem test_rotor :
    let r (d z : Nat) : Rotor := { Rotor.atReset with target := 6, duty := d, zeroBeats := z }
    ((r 0 0).update 0 .normal 4).duty = 24 ∧ ((r 24 0).update 0 .normal 4).duty = 48 ∧ ((r 48 0).update 5 .normal 4).duty = 67
      ∧ ((r 67 0).update 20 .normal 4).duty = 71 ∧ ((r 71 0).update 26 .normal 4).duty = 69
      ∧ (r 69 0).update 0 .normal 4 = r 93 1 ∧ (r 93 1).stalls 0 .normal = true ∧ (r 93 1).update 0 .cut 4 = r 93 1 := by decide

/-! ## The drive rail and the pins -/

theorem test_rail_bands :
    let r (b : Band) (d c u : Nat) : Rail := ⟨List.replicate 8 120, 120, true, b, true, d, c, u⟩
    let o := { settings with depth := 2 }
    (((r .normal 1 1 0).sample o 111).band = .cut) ∧ (((r .normal 1 0 0).sample o 127).band = .low)
      ∧ (((r .normal 1 0 0).sample o 128).downRun = 0) ∧ (((r .low 0 0 1).sample o 132).band = .normal)
      ∧ (((r .low 0 0 1).sample o 131).band = .low) ∧ (((r .cut 0 0 1).sample o 116).band = .low)
      ∧ (((r .cut 0 0 1).sample o 115).upRun = 0) ∧ ((r .cut 0 0 1).sample o 116).accepted = 119 := by decide +kernel

/-- The worked case of 5.3: the cut at 10,237,000 leaves a recovery until 10,268,384 and raises RAIL_CUT. -/
theorem test_rail_cut :
    let s := { driving with rail := { driving.rail with cutRun := 7, downRun := 7 } }
    s.steady = true ∧ ((after (.railSample 10237000 27750) s).channel 0).recoveryEnd = some 10268384
      ∧ (after (.railSample 10237000 27750) s).confirm = [⟨0, 10, 10249606, 10246606, 10255606, false, false, false, true, false, .normal⟩]
      ∧ (after (.railSample 10237000 27750) s).rail.band = .cut ∧ (after (.railSample 10237000 27750) s).faultOut = true
      ∧ (railReading 63750 = 255 ∧ railReading 63749 = 254 ∧ railReading 250 = 1 ∧ railReading 249 = 0 ∧ railReading (-1) = 0)
      ∧ ((after (.railSample 10237000 27750) s).item srcRailCut).map AttentionItem.firstDetail = some 111
      ∧ ((after (.railSample 10237000 28000) s).item srcRailLow).isSome = true ∧ (after (.railSample 10237000 32000) s).rail.band = .normal := by
  decide +kernel

/-- The sample that lets the part of one slot out of CUT: the waiting damper, the waiting strike before it, a strike whose fire time has just come, a late one, and a raise that is due. -/
theorem test_leaving_cut :
    let low (s : State) : State := { s with
      rail := { s.rail with band := .cut, upRun := 7 }, options := { settings with driveSlots := 1 } }
    let go (s : State) : State := after (.railSample 10235616 30000) (low s)
    let wait (cs : List Claim) : State := { armed with planner := { queue := [armedStrike], claims := cs } }
    let late : StrikeEntry := { armedStrike with phase := .armed 0 10220000 10220000 }
    let raise := damped Damper.atReset true
    (low (wait [])).steady = true ∧ (low (wait [⟨5, 12, .damper⟩])).steady = true ∧ (low raise).steady = true
      ∧ (go (wait [⟨10235616, 0, .strike⟩])).rail.band = .low
      ∧ ((go (wait [⟨5, 12, .damper⟩, ⟨10235616, 0, .strike⟩])).damper 12).state = .raising
      ∧ (go (wait [⟨5, 12, .damper⟩, ⟨10235616, 0, .strike⟩])).planner.claims = [⟨10235616, 0, .strike⟩]
      ∧ ((go (wait [⟨10235616, 0, .strike⟩, ⟨10235617, 12, .damper⟩])).channel 0).pulse.map Pulse.band = some .low
      ∧ ((go (wait [])).channel 0).pulse.isSome = true
      ∧ ((go { wait [⟨10220000, 0, .strike⟩] with planner := ⟨[late], [⟨10220000, 0, .strike⟩]⟩ }).channel 0).dropped = 1
      ∧ ((go raise).damper 12).state = .raising ∧ (go raise).reader.timeline = [] := by decide +kernel

theorem test_outputs :
    driving.drv 0 = true ∧ driving.drv 1 = false ∧ ({ driving with station := station .service } : State).drv 0 = false
      ∧ (after (.resetNAssert T) driving).drv 0 = false ∧ (part .halted).faultOut = true ∧ (part .playing).faultOut = false
      ∧ (part .playing).lineTx = none ∧ (part .playing).lineLevel = .recessive
      ∧ ({ driving with station := station .service, rotor := { Rotor.atReset with duty := 9 } } : State).rotorOut = 0
      ∧ ({ driving with rotor := { Rotor.atReset with duty := 9 } } : State).rotorOut = 9 := by decide +kernel

end Sys2Proof.Tests
end

section
/-! PROOFS. The follow update's arithmetic (R31): clamping, the roundings of zero and of a whole multiple, the clock after a follow update. -/

namespace Sys2Proof.Machine

/-! ### Clamping and rounding (00, Rounding) -/

theorem clamp_mem {a b : Int} (hab : a ≤ b) (x : Int) : a ≤ clamp a b x ∧ clamp a b x ≤ b := by
  unfold clamp
  split
  · exact ⟨le_refl a, hab⟩
  · split <;> omega

theorem clamp_of_mem {a b x : Int} (ha : a ≤ x) (hb : x ≤ b) : clamp a b x = x := by
  simp [clamp, not_lt.mpr ha, not_lt.mpr hb]

@[simp] theorem trunc_zero (d : Int) : trunc 0 d = 0 := Int.zero_tdiv d

/-- The half that `rhu` adds is less than the divisor, so a whole multiple is not moved. -/
theorem rhu_mul_self {d : Int} (hd : 0 < d) (n : Int) : rhu (n * d) d = n := by
  have split_half : 2 * (n * d) + d = d + n * (2 * d) := by ring
  have half_rounds_off : d / (2 * d) = 0 := Int.ediv_eq_zero_of_lt (by omega) (by omega)
  rw [rhu, split_half, Int.add_mul_ediv_right _ _ (by omega), half_rounds_off, zero_add]

theorem rhaz_zero {d : Int} (hd : 0 < d) : rhaz 0 d = 0 := by
  have hrhu : rhu 0 d = 0 := by simpa using rhu_mul_self hd 0
  simpa [rhaz, rhu] using hrhu

/-! ### The four figures of the follow update (R31) -/

@[simp] theorem phaseCorrection_zero (o : Options) : phaseCorrection o 0 = 0 := by
  rw [phaseCorrection, zero_mul, rhaz_zero (by decide), clamp_of_mem (by decide) (by decide)]

theorem newTrim_mem (o : Options) (d e : Int) : -3277 ≤ newTrim o d e ∧ newTrim o d e ≤ 3277 :=
  clamp_mem (by decide) _

/-- Without a frequency gain the trim stands, where it lies in its range already. -/
theorem newTrim_of_gainFreq_zero {o : Options} {d : Int} (hgain : o.gainFreq = 0) (hlo : -3277 ≤ d) (hhi : d ≤ 3277)
    (e : Int) : newTrim o d e = d := by
  rw [newTrim, hgain, mul_zero, trunc_zero, add_zero, clamp_of_mem hlo hhi]

theorem newBeatLength_mem (tEff c : Int) : 180000 ≤ newBeatLength tEff c ∧ newBeatLength tEff c ≤ 2200000 :=
  clamp_mem (by decide) _

/-- Without a phase correction the beat is the effective tempo's. -/
@[simp] theorem newBeatLength_zero (tEff : Int) : newBeatLength tEff 0 = clamp 180000 2200000 tEff := by
  rw [newBeatLength, sub_zero, rhu_mul_self (by decide)]

/-! ### The clock after a follow update -/

@[simp] theorem Clock.follow_d (c : Clock) (o : Options) (e : Int) : (c.follow o e).d = newTrim o c.d e := rfl

@[simp] theorem Clock.follow_l (c : Clock) (o : Options) (e : Int) :
    (c.follow o e).l = newBeatLength (effectiveTempo c.tScore (c.follow o e).d) (phaseCorrection o e) := rfl

theorem Clock.follow_frame (c : Clock) (o : Options) (e : Int) : { c.follow o e with d := c.d, l := c.l } = c := by
  cases c
  rfl

theorem Clock.follow_d_of_gainFreq_zero {c : Clock} {o : Options} (hgain : o.gainFreq = 0) (hlo : -3277 ≤ c.d)
    (hhi : c.d ≤ 3277) (e : Int) : (c.follow o e).d = c.d := newTrim_of_gainFreq_zero hgain hlo hhi e

theorem Clock.follow_l_of_zero (c : Clock) (o : Options) :
    (c.follow o 0).l = clamp 180000 2200000 (effectiveTempo c.tScore (c.follow o 0).d) := by
  rw [follow_l, phaseCorrection_zero, newBeatLength_zero]

theorem Clock.follow_d_mem (c : Clock) (o : Options) (e : Int) : -3277 ≤ (c.follow o e).d ∧ (c.follow o e).d ≤ 3277 :=
  newTrim_mem o c.d e

theorem Clock.follow_l_mem (c : Clock) (o : Options) (e : Int) :
    180000 ≤ (c.follow o e).l ∧ (c.follow o e).l ≤ 2200000 :=
  newBeatLength_mem (effectiveTempo c.tScore (c.follow o e).d) (phaseCorrection o e)

/-- Settles O22: D and L are R31's figures by definition; a gain of 0 leaves D, since D lay in its range, and E = 0 gives
C = 0, with which L is the effective tempo, clamped. -/
theorem followUpdateCorrectsTrimAndBeat : Obligations.FollowUpdateCorrectsTrimAndBeat := by
  intro c o e hlo hhi corr t
  refine ⟨c.follow_d o e, ?trimStands, c.follow_l o e, ?beatIsTempo, c.follow_d_mem o e, c.follow_l_mem o e,
    c.follow_frame o e⟩
  case trimStands => exact fun hgain => Clock.follow_d_of_gainFreq_zero hgain hlo hhi e
  case beatIsTempo =>
    intro he
    subst he
    exact c.follow_l_of_zero o

end Sys2Proof.Machine
end

section
/-! PROOFS. The flight of a strike (R68): its velocity term at both ends of the velocity range, and what the planner's figures take from the state. -/

namespace Sys2Proof.Machine

/-- What is added to a whole multiple and is less than the divisor is truncated away. -/
theorem trunc_mul_add {d n k : Int} (hn : 0 ≤ n) (hk : 0 ≤ k) (hkd : k < d) : trunc (n * d + k) d = n := by
  have hd : 0 < d := by omega
  have hsum : 0 ≤ n * d + k := Int.add_nonneg (Int.mul_nonneg hn hd.le) hk
  rw [trunc, Int.tdiv_eq_ediv_of_nonneg hsum, add_comm, Int.add_mul_ediv_right _ _ hd.ne',
    Int.ediv_eq_zero_of_lt hk hkd, zero_add]

/-! ### The velocity term (R68) -/

/-- At velocity 1 the dividend is 126 spans and the rounding's 63. -/
theorem rawFlight_one {cs : ChannelSettings} (hspan : 0 ≤ cs.flightSpan) : rawFlight cs 1 = cs.flightMin + cs.flightSpan := by
  have dividend : (127 - ((1 : Nat) : Int)) * cs.flightSpan + 63 = cs.flightSpan * 126 + 63 := by
    push_cast
    ring
  rw [rawFlight, dividend, trunc_mul_add hspan (by decide) (by decide)]

/-- At velocity 127 the dividend is the rounding's 63 alone, whatever the span. -/
theorem rawFlight_127 (cs : ChannelSettings) : rawFlight cs 127 = cs.flightMin := by
  have dividend : (127 - ((127 : Nat) : Int)) * cs.flightSpan + 63 = 0 * 126 + 63 := by
    push_cast
    ring
  rw [rawFlight, dividend, trunc_mul_add (le_refl 0) (by decide) (by decide), add_zero]

/-! ### The planner's flight -/

/-- The flight is computed of the channel's settings, the rail's divisor and the channel's trim (R66, R68). -/
theorem State.figures_flight (s : State) (c : Chan) (v : Nat) :
    (s.figures c v).flight
      = flightOf (s.settings c) v s.options.nom (divisor s.rail.accepted s.options.cut) (s.channel c).trim := rfl

/-- Settles O25: the flight is R68's figure at the divisor of R66 by definition; its velocity term is the whole span at
velocity 1, and at 127 nothing, where the 63 added for rounding is truncated away. -/
theorem flightFollowsVelocityRailAndTrim : Obligations.FlightFollowsVelocityRailAndTrim := by
  intro s c v cs r
  refine ⟨?flight, fun hspan => ⟨rawFlight_one hspan, rawFlight_127 cs⟩⟩
  case flight => rw [s.figures_flight c v, flightOf, rawFlight, divisor]

end Sys2Proof.Machine
end

section
/-! PROOFS. The rail monitor's judgment of a sample (R135, R136): what the record, the runs and the change of the band do, and the three rows of the table. -/

namespace Sys2Proof.Machine

/-! ### Recording and counting -/

@[simp] theorem Rail.record_band (r : Rail) (x : Nat) : (r.record x).band = r.band := rfl
@[simp] theorem Rail.record_downRun (r : Rail) (x : Nat) : (r.record x).downRun = r.downRun := rfl
@[simp] theorem Rail.record_cutRun (r : Rail) (x : Nat) : (r.record x).cutRun = r.cutRun := rfl
@[simp] theorem Rail.record_upRun (r : Rail) (x : Nat) : (r.record x).upRun = r.upRun := rfl

/-- The rail with the sample recorded and the runs updated, before the band is tested. -/
def Rail.counted (r : Rail) (o : Options) (x : Nat) : Rail := (r.record x).count o x

@[simp] theorem Rail.count_band (r : Rail) (o : Options) (x : Nat) : (r.count o x).band = r.band := by
  cases h : r.band <;> simp [count, h]

@[simp] theorem Rail.counted_band (r : Rail) (o : Options) (x : Nat) : (r.counted o x).band = r.band := by
  rw [counted, count_band, record_band]

/-- In NORMAL the down run and the cut run are used. -/
theorem Rail.counted_runs_of_normal {r : Rail} (h : r.band = .normal) (o : Options) (x : Nat) :
    (r.counted o x).downRun = (if x < o.warn then r.downRun + 1 else 0)
      ∧ (r.counted o x).cutRun = (if x < o.cut then r.cutRun + 1 else 0) ∧ (r.counted o x).upRun = 0 := by
  simp [counted, count, h]

/-- In LOW the cut run and the up run are used; the rising trip is warn + hyst. -/
theorem Rail.counted_runs_of_low {r : Rail} (h : r.band = .low) (o : Options) (x : Nat) :
    (r.counted o x).downRun = 0 ∧ (r.counted o x).cutRun = (if x < o.cut then r.cutRun + 1 else 0)
      ∧ (r.counted o x).upRun = (if o.warn + o.hyst ≤ x then r.upRun + 1 else 0) := by
  simp [counted, count, h]

/-- In CUT the up run alone is used; the rising trip is cut + hyst. -/
theorem Rail.counted_runs_of_cut {r : Rail} (h : r.band = .cut) (o : Options) (x : Nat) :
    (r.counted o x).downRun = 0 ∧ (r.counted o x).cutRun = 0
      ∧ (r.counted o x).upRun = (if o.cut + o.hyst ≤ x then r.upRun + 1 else 0) := by
  simp [counted, count, h]

/-! ### The band that the runs give -/

theorem Rail.bandAfter_of_normal {r : Rail} (h : r.band = .normal) (depth : Nat) :
    r.bandAfter depth = if depth ≤ r.cutRun then .cut else if depth ≤ r.downRun then .low else .normal := by
  simp only [bandAfter, h]

theorem Rail.bandAfter_of_low {r : Rail} (h : r.band = .low) (depth : Nat) :
    r.bandAfter depth = if depth ≤ r.cutRun then .cut else if depth ≤ r.upRun then .normal else .low := by
  simp only [bandAfter, h]

theorem Rail.bandAfter_of_cut {r : Rail} (h : r.band = .cut) (depth : Nat) :
    r.bandAfter depth = if depth ≤ r.upRun then .low else .cut := by
  simp only [bandAfter, h]

/-! ### Taking the band -/

@[simp] theorem Rail.takeBand_self (r : Rail) : r.takeBand r.band = r := if_pos rfl

theorem Rail.takeBand_of_ne {r : Rail} {b : Band} (h : b ≠ r.band) :
    r.takeBand b = { r with band := b, downRun := 0, cutRun := 0, upRun := 0 } := if_neg h

/-! ### A judged sample -/

theorem Rail.sample_of_judging {r : Rail} (hj : r.judging = true) (o : Options) (x : Nat) :
    r.sample o x = (r.counted o x).takeBand ((r.counted o x).bandAfter o.depth) := if_pos hj

/-- Where the runs give another band, that band is taken and no run is left (R135). -/
theorem Rail.sample_of_band_moved {r : Rail} {o : Options} {x : Nat} {b : Band} (hj : r.judging = true)
    (hafter : (r.counted o x).bandAfter o.depth = b) (hb : b ≠ r.band) :
    (r.sample o x).band = b ∧ (r.sample o x).downRun = 0 ∧ (r.sample o x).cutRun = 0 ∧ (r.sample o x).upRun = 0 := by
  have hmoved : b ≠ (r.counted o x).band := by rwa [counted_band]
  rw [sample_of_judging hj, hafter, takeBand_of_ne hmoved]
  exact ⟨rfl, rfl, rfl, rfl⟩

/-- Where the runs give the band in force, the sample has moved the runs alone. -/
theorem Rail.sample_of_band_stays {r : Rail} {o : Options} {x d k up : Nat} (hj : r.judging = true)
    (hafter : (r.counted o x).bandAfter o.depth = r.band)
    (hruns : (r.counted o x).downRun = d ∧ (r.counted o x).cutRun = k ∧ (r.counted o x).upRun = up) :
    (r.sample o x).band = r.band ∧ (r.sample o x).downRun = d ∧ (r.sample o x).cutRun = k ∧ (r.sample o x).upRun = up := by
  rw [sample_of_judging hj, hafter, ← r.counted_band o x, takeBand_self]
  exact ⟨rfl, hruns⟩

/-- Settles O27: in each band the runs are that row's of the table, and the band they give is either another one, which is
taken with the runs at 0, or the one in force, with which the runs stand as counted. -/
theorem samplesMoveTheBandByTheTable : Obligations.SamplesMoveTheBandByTheTable := by
  intro r o x hj t down cutRun moved stays
  refine ⟨?normal, ?low, ?cut⟩
  case normal =>
    intro hband
    have hruns := Rail.counted_runs_of_normal hband o x
    have hafter : (r.counted o x).bandAfter o.depth
        = if o.depth ≤ cutRun then .cut else if o.depth ≤ down then .low else .normal := by
      obtain ⟨hdown, hcut, -⟩ := hruns
      rw [Rail.bandAfter_of_normal ((r.counted_band o x).trans hband), hcut, hdown]
    split_ifs at hafter ⊢ with reachesCut reachesDown
    · exact Rail.sample_of_band_moved hj hafter (by simp [hband])
    · exact Rail.sample_of_band_moved hj hafter (by simp [hband])
    · exact Rail.sample_of_band_stays hj (hafter.trans hband.symm) hruns
  case low =>
    intro hband up
    have hruns := Rail.counted_runs_of_low hband o x
    have hafter : (r.counted o x).bandAfter o.depth
        = if o.depth ≤ cutRun then .cut else if o.depth ≤ up then .normal else .low := by
      obtain ⟨-, hcut, hup⟩ := hruns
      rw [Rail.bandAfter_of_low ((r.counted_band o x).trans hband), hcut, hup]
    split_ifs at hafter ⊢ with reachesCut reachesUp
    · exact Rail.sample_of_band_moved hj hafter (by simp [hband])
    · exact Rail.sample_of_band_moved hj hafter (by simp [hband])
    · exact Rail.sample_of_band_stays hj (hafter.trans hband.symm) hruns
  case cut =>
    intro hband up
    have hruns := Rail.counted_runs_of_cut hband o x
    have hafter : (r.counted o x).bandAfter o.depth = if o.depth ≤ up then .low else .cut := by
      obtain ⟨-, -, hup⟩ := hruns
      rw [Rail.bandAfter_of_cut ((r.counted_band o x).trans hband), hup]
    split_ifs at hafter ⊢ with reachesUp
    · exact Rail.sample_of_band_moved hj hafter (by simp [hband])
    · exact Rail.sample_of_band_stays hj (hafter.trans hband.symm) hruns

end Sys2Proof.Machine
end
